-- ==== Sys2Proof/Word.lean ====
section
/-! DEFINITION. The word types of the HT46RS03 (R8, R10): data bytes, program words, the two kinds of address and
bit numbers. All arithmetic on them is BitVec's own, which wraps modulo the width as R10 says. -/

namespace Sys2Proof

/-- A data value, 8 bits (R8). -/
abbrev Byte := BitVec 8

/-- A word of program memory, 15 bits (R8, R34). -/
abbrev PWord := BitVec 15

/-- A program address, 11 bits (R8, R31). -/
abbrev PAddr := BitVec 11

/-- A data address, 7 bits (R8, R35). -/
abbrev DAddr := BitVec 7

/-- The number of a bit of a byte, 0 to 7, 0 the least significant (R10, R164). -/
abbrev BitNo := BitVec 3

/-- A byte with bit `p` equal to `b` and every other bit 0. -/
def bitAt (p : BitNo) (b : Bool) : Byte := if b then 1#8 <<< p.toNat else 0#8

end Sys2Proof
end

