-- ==== Sys2Proof/Syntax.lean ====
section
/-! DEFINITION. The 63 instructions, one constructor for each row of spec/opcode_table.json, in the table's order.
`m` is a data address, `x` an immediate byte, `i` a bit number, `addr` a program address; each operand has exactly the
width its field has (R163, R164), so every term of the type is encodable. -/

namespace Sys2Proof

/-- An instruction with its operand values. -/
inductive Instr where
  | nop
  | clrWdt1
  | halt
  | ret
  | reti
  | clrWdt2
  | clrWdt
  | movMA (m : DAddr)
  | cplaM (m : DAddr)
  | cplM (m : DAddr)
  | subAM (m : DAddr)
  | submAM (m : DAddr)
  | addAM (m : DAddr)
  | addmAM (m : DAddr)
  | xorAM (m : DAddr)
  | xormAM (m : DAddr)
  | orAM (m : DAddr)
  | ormAM (m : DAddr)
  | andAM (m : DAddr)
  | andmAM (m : DAddr)
  | movAM (m : DAddr)
  | szaM (m : DAddr)
  | szM (m : DAddr)
  | swapaM (m : DAddr)
  | swapM (m : DAddr)
  | sbcAM (m : DAddr)
  | sbcmAM (m : DAddr)
  | adcAM (m : DAddr)
  | adcmAM (m : DAddr)
  | incaM (m : DAddr)
  | incM (m : DAddr)
  | decaM (m : DAddr)
  | decM (m : DAddr)
  | sizaM (m : DAddr)
  | sizM (m : DAddr)
  | sdzaM (m : DAddr)
  | sdzM (m : DAddr)
  | rlaM (m : DAddr)
  | rlM (m : DAddr)
  | rraM (m : DAddr)
  | rrM (m : DAddr)
  | rlcaM (m : DAddr)
  | rlcM (m : DAddr)
  | rrcaM (m : DAddr)
  | rrcM (m : DAddr)
  | tabrdcM (m : DAddr)
  | tabrdlM (m : DAddr)
  | daaM (m : DAddr)
  | clrM (m : DAddr)
  | setM (m : DAddr)
  | retAX (x : Byte)
  | subAX (x : Byte)
  | addAX (x : Byte)
  | xorAX (x : Byte)
  | orAX (x : Byte)
  | andAX (x : Byte)
  | movAX (x : Byte)
  | callAddr (addr : PAddr)
  | jmpAddr (addr : PAddr)
  | setMi (m : DAddr) (i : BitNo)
  | clrMi (m : DAddr) (i : BitNo)
  | snzMi (m : DAddr) (i : BitNo)
  | szMi (m : DAddr) (i : BitNo)
  deriving DecidableEq, Repr

end Sys2Proof
end

