-- ==== Sys2Proof/Config.lean ====
section
/-! DEFINITION. What is fixed for one chip and its program (R7, R9, 92_eei_decisions.md section 2), as plain data, and
the free values of the model (R12 `draw`), as constants without a body. A `Config` is a field of the machine's state that
no step writes, so that a statement about every state is a statement about every configuration (log 2, 3, 4, 10). -/

namespace Sys2Proof

/-- The four parts of the family (R1, R2). -/
inductive Part where
  | ht46rs03
  | ht46rs03e
  | ht46rs03p
  | ht46rs03pe
  deriving DecidableEq, Repr

/-- The special function registers, the locations of R52. -/
inductive Sfr where
  | iar | mp | acc | pcl | tblp | tblh | wdts | status | intc0 | intc1
  | tmr0 | tmr0c | tmr1h | tmr1l | tmr1c | pa | pac | pb | pbc
  | misc | opac1 | opac2 | opac3 | cmpc
  deriving DecidableEq, Repr

/-- Mask option 5 (R9, R381). -/
inductive Oscillator where
  | rcClockOut   -- RC, OSC2 puts out f_SYS/4
  | rcPortPin    -- RC, PB6 is an I/O pin
  | crystal
  deriving DecidableEq, Repr

/-- Mask option 7 (R9, R386). -/
inductive PfdSource where
  | timer0
  | timer1
  deriving DecidableEq, Repr

/-- Mask option 9 (R9, R361). -/
inductive WdtClock where
  | rcOscillator
  | systemQuarter   -- f_SYS/4, the instruction clock
  deriving DecidableEq, Repr

/-- Mask option 13 (R9, R424); only the analog supply threshold depends on it. -/
inductive LvrVoltage where
  | v21
  | v315
  | v42
  deriving DecidableEq, Repr

/-- Where the EEPROM's SDA and SCL lines go (R400): to PB4 and PB5 inside the package, or to pins of their own. -/
inductive EepromWiring where
  | portB
  | ownPins
  deriving DecidableEq, Repr

/-- ENC (R160, U2): what each word of program memory means. -/
inductive Encoding where
  /-- The encoding the spec assigns (R161 to R170, D3): the default. -/
  | assigned
  /-- Any other: the words that are instructions, each with its instruction and operand values. -/
  | words (table : List (PWord × Instr))
  deriving DecidableEq, Repr

/-- The mask options OPT (R9), written with the program and never changed by software. -/
structure Options where
  paWake : Byte
  paPull : Byte
  pbPull : Byte
  pa0Pfd : Bool
  osc : Oscillator
  xtalHigh : Bool
  pfdSource : PfdSource
  wdtEnabled : Bool
  wdtClock : WdtClock
  /-- Option 10: two clear instructions (CLR WDT1 and CLR WDT2) when true, one (CLR WDT) when false. -/
  twoClears : Bool
  opaBiasInternal : Bool
  lvrEnabled : Bool
  lvrVoltage : LvrVoltage
  lockAll : Bool
  lockPart : Bool
  deriving DecidableEq, Repr

/-- STATUS_POS (R40, R53): where OV, Z, AC and C stand; TO is bit 5 and PDF bit 4. -/
structure StatusPos where
  ov : BitNo
  z : BitNo
  ac : BitNo
  c : BitNo
  deriving DecidableEq, Repr

/-- INTC_POS (R53): positions in INTC0 (EMI is bit 0) and, for ECI and CF, in INTC1. -/
structure IntcPos where
  eei : BitNo
  et0i : BitNo
  et1i : BitNo
  eif : BitNo
  t0f : BitNo
  t1f : BitNo
  eci : BitNo
  cf : BitNo
  deriving DecidableEq, Repr

/-- MISC_POS (R53, R65): the fields of MISC with a digital effect, and its comparator output flag. -/
structure MiscPos where
  intes1 : BitNo
  intes0 : BitNo
  cmpes : BitNo
  couten : BitNo
  coutsel : BitNo
  flag : BitNo
  deriving DecidableEq, Repr

/-- OPAC_POS and CMPC_POS (R53, R66 to R69): the enable bit and the output flag of one analog control register. -/
structure AnalogPos where
  enable : BitNo
  flag : BitNo
  deriving DecidableEq, Repr

/-- Everything that is fixed for one chip (R7): no instruction and no agent changes it. -/
structure Config where
  part : Part
  opt : Options
  /-- ENC (R160): the instruction encoding. -/
  enc : Encoding
  /-- SFR_MAP (R52): the address of every special function register. -/
  sfrMap : List (DAddr × Sfr)
  /-- GPR_BASE (R36): the first address of the general purpose RAM. -/
  gprBase : DAddr
  statusPos : StatusPos
  intcPos : IntcPos
  miscPos : MiscPos
  opac1Pos : AnalogPos
  opac2Pos : AnalogPos
  opac3Pos : AnalogPos
  cmpcPos : AnalogPos
  /-- CMPES_both (R373): the value of MISC.CMPES that selects both edges. -/
  cmpesBoth : Bool
  /-- T_WS (R410): the longest time of an EEPROM write, in intervals of the model (cycles or idle intervals). -/
  writeTime : Nat
  eepromWiring : EepromWiring
  /-- The instruction cycles an interrupt entry takes, which the spec does not state (R326, N15). -/
  entryCycles : Nat
  deriving DecidableEq, Repr

/-! ## Free values

Each is applied to the state's `draws` counter; nothing can be proved about the values. -/

/-- What bits read as that are not implemented (R80, U12), hold an output flag (U15) or belong to a pin in analog or
oscillator use (R370, R371, R381). -/
opaque Config.freeRead : Nat → Byte

/-- OV, Z, AC, C after a flag-writing instruction whose destination is STATUS (R47, U6). -/
opaque Config.freeFlags : Nat → BitVec 4

/-- The program counter after a return with an empty stack (R39, U5). -/
opaque Config.freePc : Nat → PAddr

/-- Whether SIZ or SDZ on PCL skips after its jump when the result is zero (U7). -/
opaque Config.freeSkip : Nat → Bool

/-- Whether a watchdog clear of the other clear method has its full effect or none (U10). -/
opaque Config.freeWdtClear : Nat → Bool

/-- The phase of Timer 0's prescaler when the timer is started (R342, U14) and after a warm reset (R79). -/
opaque Config.freePhase : Nat → BitVec 7

/-- Whether the timer clock that first sees a pin transition in pulse width mode counts (R349, "may be off by a small
amount"): the draw, then the timer's and the transition's number. -/
opaque Config.freePulse : Nat → Nat → Bool

/-- A register the reset table marks x, and the draws of R73, R74 and R76: the draw, then the item's number. -/
opaque Config.freeReset : Nat → Nat → BitVec 16

/-- A byte of the general purpose RAM after a power-on within a run (R79): the draw, then the address. -/
opaque Config.freeRam : Nat → Nat → Byte

/-- Which of SDA and SCL changed first when both change at once (not stated, R401). -/
opaque Config.freeLineOrder : Nat → Bool

/-- The EEPROM's byte, address, counter and acknowledge where R409 and U17 leave them open, and what it holds after a
power-up where R77 and R411 are silent: the draw, then the item's number. -/
opaque Config.freeEeprom : Nat → Nat → Byte

end Sys2Proof
end

