-- ==== Sys2Proof/Decode.lean ====
section
/-! DEFINITION. ENC, the configuration's instruction encoding (R160), and its default, the assigned encoding (R161 to R170;
spec/opcode_table.json): the decoder, total on 15-bit words and rejecting an unassigned word by name, and after it the
encoder, written from the same tables (R165 to R168). The assigned encoding is the spec's own choice and not the chip's
machine code (D3, log 1). -/

namespace Sys2Proof

/-- Why a word is no instruction. -/
inductive DecodeError where
  /-- The word matches no row of the opcode table (R170). -/
  | unassigned (w : PWord)
  deriving DecidableEq, Repr

/-- Field `m`, bits 6..0 (R163). -/
def fieldM (w : PWord) : DAddr := w.extractLsb' 0 7

/-- Field `x`, bits 7..0 (R163). -/
def fieldX (w : PWord) : Byte := w.extractLsb' 0 8

/-- Field `i`, bits 9..7 (R163). -/
def fieldI (w : PWord) : BitNo := w.extractLsb' 7 3

/-- Field `addr`, bits 10..0 (R163). -/
def fieldAddr (w : PWord) : PAddr := w.extractLsb' 0 11

/-- Format N: the whole word (R165). -/
def decodeWhole (w : PWord) : Except DecodeError Instr :=
  match w.toNat with
  | 0x0000 => .ok .nop
  | 0x0001 => .ok .clrWdt1
  | 0x0002 => .ok .halt
  | 0x0003 => .ok .ret
  | 0x0004 => .ok .reti
  | 0x0005 => .ok .clrWdt2
  | 0x0006 => .ok .clrWdt
  | _ => .error (.unassigned w)

/-- Format M: the operation in bits 13..7 (R166). -/
def decodeM (w : PWord) : Except DecodeError Instr :=
  match (w.extractLsb' 7 7).toNat with
  | 0x01 => .ok (.movMA (fieldM w))
  | 0x02 => .ok (.cplaM (fieldM w))
  | 0x03 => .ok (.cplM (fieldM w))
  | 0x04 => .ok (.subAM (fieldM w))
  | 0x05 => .ok (.submAM (fieldM w))
  | 0x06 => .ok (.addAM (fieldM w))
  | 0x07 => .ok (.addmAM (fieldM w))
  | 0x08 => .ok (.xorAM (fieldM w))
  | 0x09 => .ok (.xormAM (fieldM w))
  | 0x0A => .ok (.orAM (fieldM w))
  | 0x0B => .ok (.ormAM (fieldM w))
  | 0x0C => .ok (.andAM (fieldM w))
  | 0x0D => .ok (.andmAM (fieldM w))
  | 0x0E => .ok (.movAM (fieldM w))
  | 0x20 => .ok (.szaM (fieldM w))
  | 0x21 => .ok (.szM (fieldM w))
  | 0x22 => .ok (.swapaM (fieldM w))
  | 0x23 => .ok (.swapM (fieldM w))
  | 0x24 => .ok (.sbcAM (fieldM w))
  | 0x25 => .ok (.sbcmAM (fieldM w))
  | 0x26 => .ok (.adcAM (fieldM w))
  | 0x27 => .ok (.adcmAM (fieldM w))
  | 0x28 => .ok (.incaM (fieldM w))
  | 0x29 => .ok (.incM (fieldM w))
  | 0x2A => .ok (.decaM (fieldM w))
  | 0x2B => .ok (.decM (fieldM w))
  | 0x2C => .ok (.sizaM (fieldM w))
  | 0x2D => .ok (.sizM (fieldM w))
  | 0x2E => .ok (.sdzaM (fieldM w))
  | 0x2F => .ok (.sdzM (fieldM w))
  | 0x30 => .ok (.rlaM (fieldM w))
  | 0x31 => .ok (.rlM (fieldM w))
  | 0x32 => .ok (.rraM (fieldM w))
  | 0x33 => .ok (.rrM (fieldM w))
  | 0x34 => .ok (.rlcaM (fieldM w))
  | 0x35 => .ok (.rlcM (fieldM w))
  | 0x36 => .ok (.rrcaM (fieldM w))
  | 0x37 => .ok (.rrcM (fieldM w))
  | 0x3A => .ok (.tabrdcM (fieldM w))
  | 0x3B => .ok (.tabrdlM (fieldM w))
  | 0x3D => .ok (.daaM (fieldM w))
  | 0x3E => .ok (.clrM (fieldM w))
  | 0x3F => .ok (.setM (fieldM w))
  | _ => .error (.unassigned w)

/-- Formats N, I and M: bit 13 is 0 (R169). -/
def decodeLow (w : PWord) : Except DecodeError Instr :=
  if w.extractLsb' 7 7 = 0#7 then decodeWhole w
  else
    match (w.extractLsb' 8 6).toNat with
    | 0x09 => .ok (.retAX (fieldX w))
    | 0x0A => .ok (.subAX (fieldX w))
    | 0x0B => .ok (.addAX (fieldX w))
    | 0x0C => .ok (.xorAX (fieldX w))
    | 0x0D => .ok (.orAX (fieldX w))
    | 0x0E => .ok (.andAX (fieldX w))
    | 0x0F => .ok (.movAX (fieldX w))
    | _ => decodeM w

/-- The decoder of the assigned encoding, by the procedure of R169. -/
def decode (w : PWord) : Except DecodeError Instr :=
  if w.getLsbD 14 then .error (.unassigned w)
  else
    match (w.extractLsb' 11 3).toNat with
    | 4 => .ok (.callAddr (fieldAddr w))
    | 5 => .ok (.jmpAddr (fieldAddr w))
    | 6 => .ok (if w.getLsbD 10 then .clrMi (fieldM w) (fieldI w) else .setMi (fieldM w) (fieldI w))
    | 7 => .ok (if w.getLsbD 10 then .szMi (fieldM w) (fieldI w) else .snzMi (fieldM w) (fieldI w))
    | _ => decodeLow w

/-- The instruction a word is under ENC (R160, U2): a total function of the word, whatever the encoding. -/
def decodeWith (enc : Encoding) (w : PWord) : Except DecodeError Instr :=
  match enc with
  | .assigned => decode w
  | .words table =>
    match table.lookup w with
    | some i => .ok i
    | none => .error (.unassigned w)

/-- The encoder: the word of an instruction, fixed bits before operand fields (R163, R165 to R168). -/
def encode : Instr → PWord
  | .nop => 0x0000#15
  | .clrWdt1 => 0x0001#15
  | .halt => 0x0002#15
  | .ret => 0x0003#15
  | .reti => 0x0004#15
  | .clrWdt2 => 0x0005#15
  | .clrWdt => 0x0006#15
  | .movMA m => 0x01#8 ++ m
  | .cplaM m => 0x02#8 ++ m
  | .cplM m => 0x03#8 ++ m
  | .subAM m => 0x04#8 ++ m
  | .submAM m => 0x05#8 ++ m
  | .addAM m => 0x06#8 ++ m
  | .addmAM m => 0x07#8 ++ m
  | .xorAM m => 0x08#8 ++ m
  | .xormAM m => 0x09#8 ++ m
  | .orAM m => 0x0A#8 ++ m
  | .ormAM m => 0x0B#8 ++ m
  | .andAM m => 0x0C#8 ++ m
  | .andmAM m => 0x0D#8 ++ m
  | .movAM m => 0x0E#8 ++ m
  | .szaM m => 0x20#8 ++ m
  | .szM m => 0x21#8 ++ m
  | .swapaM m => 0x22#8 ++ m
  | .swapM m => 0x23#8 ++ m
  | .sbcAM m => 0x24#8 ++ m
  | .sbcmAM m => 0x25#8 ++ m
  | .adcAM m => 0x26#8 ++ m
  | .adcmAM m => 0x27#8 ++ m
  | .incaM m => 0x28#8 ++ m
  | .incM m => 0x29#8 ++ m
  | .decaM m => 0x2A#8 ++ m
  | .decM m => 0x2B#8 ++ m
  | .sizaM m => 0x2C#8 ++ m
  | .sizM m => 0x2D#8 ++ m
  | .sdzaM m => 0x2E#8 ++ m
  | .sdzM m => 0x2F#8 ++ m
  | .rlaM m => 0x30#8 ++ m
  | .rlM m => 0x31#8 ++ m
  | .rraM m => 0x32#8 ++ m
  | .rrM m => 0x33#8 ++ m
  | .rlcaM m => 0x34#8 ++ m
  | .rlcM m => 0x35#8 ++ m
  | .rrcaM m => 0x36#8 ++ m
  | .rrcM m => 0x37#8 ++ m
  | .tabrdcM m => 0x3A#8 ++ m
  | .tabrdlM m => 0x3B#8 ++ m
  | .daaM m => 0x3D#8 ++ m
  | .clrM m => 0x3E#8 ++ m
  | .setM m => 0x3F#8 ++ m
  | .retAX x => 0x09#7 ++ x
  | .subAX x => 0x0A#7 ++ x
  | .addAX x => 0x0B#7 ++ x
  | .xorAX x => 0x0C#7 ++ x
  | .orAX x => 0x0D#7 ++ x
  | .andAX x => 0x0E#7 ++ x
  | .movAX x => 0x0F#7 ++ x
  | .callAddr addr => 0x4#4 ++ addr
  | .jmpAddr addr => 0x5#4 ++ addr
  | .setMi m i => 0x0C#5 ++ (i ++ m)
  | .clrMi m i => 0x0D#5 ++ (i ++ m)
  | .snzMi m i => 0x0E#5 ++ (i ++ m)
  | .szMi m i => 0x0F#5 ++ (i ++ m)

/-- The instruction the decoder reads from an instruction whose bits are `w`, bit 0 the least significant, every bit from
`nbits` up being 0. Every instruction is one 15-bit word, stored whole (R128, R162); a number that needs more bits is no
program word. -/
def decodeTableWord (nbits w : Nat) : Option Instr :=
  let v := w % 2 ^ nbits
  if v < 2 ^ 15 then (decode (BitVec.ofNat 15 v)).toOption else none

end Sys2Proof
end

