-- ==== Sys2Proof/Machine/Defaults.lean ====
section
/-! DEFINITION. The configuration of State.reset: the spec's defaults where it has one (R36, R40, R52, R53), values named
in the assumption log where it has none (log 4, 10, 11, 12). No statement rests on a value chosen here. -/

namespace Sys2Proof.Machine

/-- The default SFR_MAP (R52; PRESUMED by the spec but for STATUS = 0AH, log 2). -/
def defaultSfrMap : List (DAddr × Sfr) :=
  [(0x00#7, .iar), (0x01#7, .mp), (0x05#7, .acc), (0x06#7, .pcl), (0x07#7, .tblp), (0x08#7, .tblh),
   (0x09#7, .wdts), (0x0A#7, .status), (0x0B#7, .intc0), (0x0C#7, .intc1), (0x0D#7, .tmr0), (0x0E#7, .tmr0c),
   (0x0F#7, .tmr1h), (0x10#7, .tmr1l), (0x11#7, .tmr1c), (0x12#7, .pa), (0x13#7, .pac), (0x14#7, .pb),
   (0x15#7, .pbc), (0x16#7, .misc), (0x17#7, .opac1), (0x18#7, .opac2), (0x19#7, .opac3), (0x1A#7, .cmpc)]

/-- The mask options of State.reset (DESIGN CHOICE, log 10): every option off, as the programs of 95_test_vectors.md. -/
def defaultOptions : Options where
  paWake := 0x00#8
  paPull := 0x00#8
  pbPull := 0x00#8
  pa0Pfd := false
  osc := .rcPortPin
  xtalHigh := false
  pfdSource := .timer0
  wdtEnabled := false
  wdtClock := .rcOscillator
  twoClears := false
  opaBiasInternal := false
  lvrEnabled := false
  lvrVoltage := .v21
  lockAll := false
  lockPart := false

/-- The default bit positions of R53 (log 3), and for the OPEN ones of R65 to R69 a choice of the model (log 4). -/
def defaultConfig : Config where
  part := .ht46rs03
  opt := defaultOptions
  enc := .assigned
  sfrMap := defaultSfrMap
  gprBase := 0x40#7
  statusPos := { ov := 3, z := 2, ac := 1, c := 0 }
  intcPos := { eei := 1, et0i := 2, et1i := 3, eif := 4, t0f := 5, t1f := 6, eci := 0, cf := 4 }
  miscPos := { intes1 := 7, intes0 := 6, cmpes := 5, couten := 4, coutsel := 3, flag := 2 }
  opac1Pos := { enable := 7, flag := 6 }
  opac2Pos := { enable := 7, flag := 6 }
  opac3Pos := { enable := 7, flag := 6 }
  cmpcPos := { enable := 7, flag := 6 }
  cmpesBoth := true
  writeTime := 1
  eepromWiring := .portB
  entryCycles := 2

end Sys2Proof.Machine
end

