-- ==== Sys2Proof/Machine/State.lean ====
section
/-! DEFINITION. The machine's state as plain data (10_state.md), the ways a step can stop, and the state after a
power-on reset (column POR of R79). Its named update functions stand here too; the lemmas about them are @[simps]'s and
those of Sys2Proof/Laws/State.lean. -/

namespace Sys2Proof.Machine

/-- Sparse contents of a storage space: pairs of an address and a value, addresses strictly rising, no value equal to
what an unlisted address reads as (0, log 6, 7, 8). `Memory 8` is a list of Host.Cell. -/
abbrev Memory (w : Nat) := List (Nat × BitVec w)

/-- Running or halted (R75). -/
inductive CoreMode where
  | running
  | halted
  deriving DecidableEq, Repr

/-- The six flags of STATUS (R40). `timeOut` is the watchdog time-out flag TO. -/
structure Status where
  ov : Bool
  z : Bool
  ac : Bool
  c : Bool
  pdf : Bool
  timeOut : Bool
  deriving DecidableEq, Repr

/-- The bits of INTC0 and INTC1 (R55, R56). -/
structure Interrupts where
  emi : Bool
  eei : Bool
  et0i : Bool
  et1i : Bool
  eif : Bool
  t0f : Bool
  t1f : Bool
  eci : Bool
  cf : Bool
  deriving DecidableEq, Repr

/-- How far a pulse width measurement has come (R349): a pin transition is seen at the next timer clock, so between the
two it is pending (log 48, 54). -/
inductive PulsePhase where
  /-- No start transition since the timer was turned on. -/
  | idle
  /-- The start transition has come and the timer clock has not yet seen it. -/
  | starting
  /-- The timer counts. -/
  | measuring
  /-- The end transition has come and the timer clock has not yet seen it. -/
  | stopping
  /-- Both have come since the last timer clock. -/
  | brief
  deriving DecidableEq, Repr

/-- Timer/Event Counter 0 (R57, R58, R70): counter, preload, TMR0C's fields, the prescaler's counter, the measurement of a
pulse (R349), and `event`, whether in event count mode an active transition has come that no timer clock has seen yet
(R436, log 54). -/
structure Timer0 where
  counter : BitVec 8
  preload : BitVec 8
  mode : BitVec 2
  on : Bool
  edge : Bool
  psc : BitVec 3
  prescaler : BitVec 7
  pulse : PulsePhase
  event : Bool
  deriving DecidableEq, Repr

/-- Timer/Event Counter 1 (R59, R60, R71), with the same two. -/
structure Timer1 where
  counter : BitVec 16
  preload : BitVec 16
  buffer : BitVec 8
  mode : BitVec 2
  on : Bool
  edge : Bool
  pulse : PulsePhase
  event : Bool
  deriving DecidableEq, Repr

/-- Which of CLR WDT1 and CLR WDT2 was executed last (R73, D16). -/
inductive WdtLast where
  | neither
  | first
  | second
  deriving DecidableEq, Repr

/-- The watchdog's counter and prescaler (R72) and `wdt_last` (R73). -/
structure Watchdog where
  count : BitVec 8
  prescaler : BitVec 7
  last : WdtLast
  deriving DecidableEq, Repr

/-- The port registers (R61 to R64): output latches and directions. -/
structure Ports where
  pa : Byte
  pac : Byte
  pb : Byte
  pbc : Byte
  deriving DecidableEq, Repr

/-- The registers of the analog units (R65 to R69). -/
structure Analog where
  misc : Byte
  opac1 : Byte
  opac2 : Byte
  opac3 : Byte
  cmpc : Byte
  deriving DecidableEq, Repr

/-- Which byte of a transfer the EEPROM is receiving (R403, R405, R409). -/
inductive EepromByte where
  | device
  | address
  | data
  deriving DecidableEq, Repr

/-- The EEPROM's place in the serial protocol (R401 to R409). -/
inductive EepromPhase where
  /-- Waiting for a START (R402). -/
  | standby
  /-- Receiving a byte: how many bits have come, and the bits. -/
  | receive (what : EepromByte) (n : Nat) (bits : Byte)
  /-- The ninth clock of a received byte: the EEPROM acknowledges (R404). -/
  | acknowledge (what : EepromByte) (byte : Byte)
  /-- Sending a byte: how many bits have been sampled, and the byte (R406). -/
  | send (n : Nat) (byte : Byte)
  /-- The ninth clock of a sent byte: what was sampled, if the clock has risen (R404). -/
  | await (acknowledged : Bool)
  /-- A data byte has been acknowledged: waiting for STOP (R409); the clocks seen since. -/
  | written (byte : Byte) (clocks : Nat)
  deriving DecidableEq, Repr

/-- The serial EEPROM (R77): cells, address counter, protocol state, the write in progress (the time left and the cell),
its own pull on SDA, and the line levels it saw last. -/
structure Eeprom where
  cells : Memory 8
  counter : BitVec 7
  phase : EepromPhase
  busy : Nat
  writing : BitVec 7
  pull : Bool
  seenSda : Bool
  seenScl : Bool
  deriving DecidableEq, Repr

/-- What the outside does at the pins (R78, R380, R372, R348): each port pin's outside level and whether the outside
drives it, the EEPROM's own pins, the comparator output and the counted signal. -/
structure Pins where
  paLevel : Byte
  paDriven : Byte
  pbLevel : Byte
  pbDriven : Byte
  sda : Bool
  scl : Bool
  cmpOut : Bool
  cntSrc : Bool
  deriving DecidableEq, Repr

/-- The levels the edge detectors saw last (R76). -/
structure Seen where
  pa : Byte
  pb1 : Bool
  cmp : Bool
  cnt : Bool
  deriving DecidableEq, Repr

/-- What the environment can do between two core steps (R6, U16; log 42). -/
inductive Event where
  /-- Pin PAi: whether the outside drives it, and its outside level. -/
  | pinA (i : BitNo) (driven level : Bool)
  /-- Pin PBi. -/
  | pinB (i : BitNo) (driven level : Bool)
  /-- The EEPROM's own SDA pin (parts whose lines are not PB4 and PB5). -/
  | sdaPin (level : Bool)
  /-- The EEPROM's own SCL pin. -/
  | sclPin (level : Bool)
  /-- The comparator's output (R372). -/
  | comparator (level : Bool)
  /-- The signal Timer 0 counts in mode 00 (R348). -/
  | countSource (level : Bool)
  /-- One period of the WDT RC oscillator (R361). -/
  | wdtOscillator
  /-- The EEPROM's write is done before T_WS is over (R410). -/
  | eepromDone
  /-- A low pulse on RES of at least t_RES (R422). -/
  | resLow
  /-- The supply has been between 0.9 V and V_LVR for longer than t_LVR (R424). -/
  | lowVoltage
  /-- The supply is applied anew (R421). -/
  | powerOn
  deriving DecidableEq, Repr

/-- The machine's state: everything 10_state.md gives it, the fixed configuration, and three fields of the model's own
(`script`, `cycles`, `draws`). -/
structure State where
  cfg : Config
  mode : CoreMode
  acc : Byte
  pc : PAddr
  /-- The saved addresses, newest last; SP is the length (R37). -/
  stack : List PAddr
  mp : BitVec 7
  tblp : Byte
  tblh : BitVec 7
  wdts : Byte
  status : Status
  intc : Interrupts
  tmr0 : Timer0
  tmr1 : Timer1
  wdt : Watchdog
  ports : Ports
  analog : Analog
  pfd : Bool
  /-- The divider of the system clock by 4 whose output PB6 shows with that oscillator option (R381, log 55). -/
  oscDivider : BitVec 2
  ram : Memory 8
  program : Memory 15
  eeprom : Eeprom
  pins : Pins
  seen : Seen
  /-- The model's own: what the environment will do, one list of events for each coming interval (log 42). -/
  script : List (List Event)
  /-- The model's own: instruction cycles charged by the running step and not yet run by the agents (R440, D19). -/
  cycles : Nat
  /-- The model's own: the argument of the free values (R12 `draw`, log 47). -/
  draws : Nat
  deriving DecidableEq, Repr

/-- A machine fault. The machine has none: R310, "The machine has no synchronous exception", and every address exists. -/
inductive Fault where
  deriving DecidableEq, Repr

/-- Why a step gives no successor state. -/
inductive Refusal where
  /-- Raised by exec for an instruction that has no meaning yet. Safe: the model stops. -/
  | notModelled (mnemonic : String)
  /-- Raised by step for a fetched word that is none of the 63 instructions (R170, D5, U1). Safe: the model stops. -/
  | unassignedWord (w : PWord)
  /-- Raised by step after an instruction that changed a timer's mode bits while the timer was on: "the timer
  malfunctions" (R356, U11). Safe: the model stops. -/
  | timerModeChangedWhileOn
  deriving DecidableEq, Repr

/-! ## Named updates, one for each field an operation writes -/

section Updates
variable (s : State)

@[simps] def State.withMode (v : CoreMode) : State := { s with mode := v }
@[simps] def State.withAcc (v : Byte) : State := { s with acc := v }
@[simps] def State.withPc (v : PAddr) : State := { s with pc := v }
@[simps] def State.withStack (v : List PAddr) : State := { s with stack := v }
@[simps] def State.withMp (v : BitVec 7) : State := { s with mp := v }
@[simps] def State.withTblp (v : Byte) : State := { s with tblp := v }
@[simps] def State.withTblh (v : BitVec 7) : State := { s with tblh := v }
@[simps] def State.withWdts (v : Byte) : State := { s with wdts := v }
@[simps] def State.withStatus (v : Status) : State := { s with status := v }
@[simps] def State.withIntc (v : Interrupts) : State := { s with intc := v }
@[simps] def State.withTmr0 (v : Timer0) : State := { s with tmr0 := v }
@[simps] def State.withTmr1 (v : Timer1) : State := { s with tmr1 := v }
@[simps] def State.withWdt (v : Watchdog) : State := { s with wdt := v }
@[simps] def State.withPorts (v : Ports) : State := { s with ports := v }
@[simps] def State.withAnalog (v : Analog) : State := { s with analog := v }
@[simps] def State.withPfd (v : Bool) : State := { s with pfd := v }
@[simps] def State.withOscDivider (v : BitVec 2) : State := { s with oscDivider := v }
@[simps] def State.withRam (v : Memory 8) : State := { s with ram := v }
@[simps] def State.withProgram (v : Memory 15) : State := { s with program := v }
@[simps] def State.withEeprom (v : Eeprom) : State := { s with eeprom := v }
@[simps] def State.withPins (v : Pins) : State := { s with pins := v }
@[simps] def State.withSeen (v : Seen) : State := { s with seen := v }
@[simps] def State.withScript (v : List (List Event)) : State := { s with script := v }
@[simps] def State.withCycles (v : Nat) : State := { s with cycles := v }
@[simps] def State.withDraws (v : Nat) : State := { s with draws := v }

end Updates

/-- The state right after a power-on reset: column POR of R79, with the named values of log 5 to 10 and 42 where that
column says unknown or a draw, and nothing placed in any memory. -/
def State.reset : State where
  cfg := defaultConfig
  mode := .running
  acc := 0x00#8
  pc := 0x000#11
  stack := []
  mp := 0x00#7
  tblp := 0x00#8
  tblh := 0x00#7
  wdts := 0x07#8
  status := { ov := false, z := false, ac := false, c := false, pdf := false, timeOut := false }
  intc := { emi := false, eei := false, et0i := false, et1i := false, eif := false, t0f := false, t1f := false,
            eci := false, cf := false }
  tmr0 := { counter := 0, preload := 0, mode := 0b00, on := false, edge := false, psc := 0b100, prescaler := 0,
            pulse := .idle, event := false }
  tmr1 := { counter := 0, preload := 0, buffer := 0, mode := 0b00, on := false, edge := true, pulse := .idle,
            event := false }
  wdt := { count := 0, prescaler := 0, last := .neither }
  ports := { pa := 0xFF, pac := 0xFF, pb := 0xFF, pbc := 0xFF }
  analog := { misc := 0x80, opac1 := 0x00, opac2 := 0x00, opac3 := 0x00, cmpc := 0x00 }
  pfd := false
  oscDivider := 0
  ram := []
  program := []
  eeprom := { cells := [], counter := 0, phase := .standby, busy := 0, writing := 0, pull := false,
              seenSda := true, seenScl := true }
  pins := { paLevel := 0xFF, paDriven := 0x00, pbLevel := 0xFF, pbDriven := 0x00, sda := true, scl := true,
            cmpOut := false, cntSrc := false }
  seen := { pa := 0xFF, pb1 := true, cmp := false, cnt := false }
  script := []
  cycles := 0
  draws := 0

end Sys2Proof.Machine
end

