-- ==== Sys2Proof/Machine/Port.lean ====
section
/-! DEFINITION. The pins (60_exceptions.md section 7): which level each port pin has, what a read of a port gives, and the
EEPROM's two lines. -/

namespace Sys2Proof.Machine

/-- `a` where the mask is 1, `b` where it is 0. -/
def select (mask a b : Byte) : Byte := (mask &&& a) ||| (~~~mask &&& b)

/-- `mask` when `b` holds, else no bit. -/
def maskIf (b : Bool) (mask : Byte) : Byte := if b then mask else 0x00#8

/-- `v` with bit `i` set to `b`. -/
def putBit (v : Byte) (i : BitNo) (b : Bool) : Byte := select (bitAt i true) (bitAt i b) v

/-- Bit `i` of `v`. -/
def getBit (v : Byte) (i : BitNo) : Bool := v.getLsbD i.toNat

/-- CMPC.CMPEN (R69, R371). -/
def comparatorOn (s : State) : Bool := getBit s.analog.cmpc s.cfg.cmpcPos.enable

/-- CMPEN = 1 and MISC.COUTEN = 1: PB2 is the comparator's output CE (R371). -/
def comparatorOnPin (s : State) : Bool := comparatorOn s && getBit s.analog.misc s.cfg.miscPos.couten

/-- The PA pins in analog use (R370): OPA1 on A1P, A1N, A1E (PA2 to PA4), OPA2 on A2E (PA5), OPA3 on A3N, A3E (PA6, PA7);
the order of the pins is DEDUCED (log 43). -/
def paAnalog (s : State) : Byte :=
  maskIf (getBit s.analog.opac1 s.cfg.opac1Pos.enable) 0x1C#8
    ||| maskIf (getBit s.analog.opac2 s.cfg.opac2Pos.enable) 0x20#8
    ||| maskIf (getBit s.analog.opac3 s.cfg.opac3Pos.enable) 0xC0#8

/-- PB0 and PB1 are the comparator's inputs when CMPEN = 1 (R371). -/
def pbAnalog (s : State) : Byte := maskIf (comparatorOn s) 0x03#8

/-- PB6 is an I/O pin only with the oscillator option RC with I/O (R381). -/
def pbOscillator (s : State) : Byte := maskIf (s.cfg.opt.osc != .rcPortPin) 0x40#8

/-- The PB pins whose port function is off: analog, oscillator, and PB2 as comparator output (R371, R381). -/
def pbOff (s : State) : Byte := pbAnalog s ||| pbOscillator s ||| maskIf (comparatorOnPin s) 0x04#8

/-- With the oscillator option RC with f_SYS/4 output, PB6 puts out the divided clock as an open drain (R381): low in one
half of the divider's period, released to the outside in the other. -/
def clockOutLow (s : State) : Bool := s.cfg.opt.osc == .rcClockOut && !s.oscDivider.getLsbD 1

/-- What port A drives at its outputs: the latch, but for PA0 as PFD output with latch bit 1 (R386). -/
def paOutput (s : State) : Byte :=
  if s.cfg.opt.pa0Pfd && getBit s.ports.pa 0 then putBit s.ports.pa 0 s.pfd else s.ports.pa

/-- The levels of the pins of one port (R380): outputs drive, inputs have the outside's level or the pull-up's. `off` are
the pins whose port function and pull-up are off. -/
def pinLevels (output control off outside driven pull : Byte) : Byte :=
  select (~~~control &&& ~~~off) output (outside ||| (pull &&& ~~~driven &&& ~~~off))

/-- The levels of PA0 to PA7. -/
def paLevel (s : State) : Byte :=
  pinLevels (paOutput s) s.ports.pac (paAnalog s) s.pins.paLevel s.pins.paDriven s.cfg.opt.paPull

/-- The levels of PB0 to PB7 but for the comparator output and the EEPROM's pull on SDA. -/
def pbOwnLevel (s : State) : Byte :=
  let v := pinLevels s.ports.pb s.ports.pbc (pbOff s) s.pins.pbLevel s.pins.pbDriven s.cfg.opt.pbPull
  if clockOutLow s then putBit v 6 false else v

/-- The parts with an EEPROM (R2). -/
def hasEeprom (s : State) : Bool := s.cfg.part == .ht46rs03e || s.cfg.part == .ht46rs03pe

/-- The EEPROM's lines are PB4 and PB5 (R400). -/
def eepromOnPortB (s : State) : Bool := hasEeprom s && s.cfg.eepromWiring == .portB

/-- The level of SDA (R400): low when the latch drives it low, the outside drives it low or the EEPROM pulls it low, high
otherwise. -/
def sdaLine (s : State) : Bool :=
  if eepromOnPortB s then
    !((!getBit s.ports.pbc 4 && !getBit s.ports.pb 4) || (getBit s.pins.pbDriven 4 && !getBit s.pins.pbLevel 4)
      || s.eeprom.pull)
  else s.pins.sda && !s.eeprom.pull

/-- The level of SCL (R400). -/
def sclLine (s : State) : Bool := if eepromOnPortB s then getBit (pbOwnLevel s) 5 else s.pins.scl

/-- The levels of PB0 to PB7. -/
def pbLevel (s : State) : Byte :=
  let v := if comparatorOnPin s then putBit (pbOwnLevel s) 2 s.pins.cmpOut else pbOwnLevel s
  if eepromOnPortB s then putBit v 4 (sdaLine s) else v

/-- A read of PA (R380): the pin where it is an input, the latch where it is an output; a free bit where the pin is in
analog use (R370). -/
def readPa (s : State) : Byte :=
  select (paAnalog s) (Config.freeRead s.draws) (select s.ports.pac (paLevel s) s.ports.pa)

/-- A read of PB (R380), with the comparator's output on PB2 (R371), and free bits where a pin is in analog or oscillator
use (R370, R381). Where PB4 is SDA it reads low while the EEPROM pulls SDA low, as an output too (R400, to which R63 and R385
refer; DEDUCED, log 28); else it is a port bit like the others. -/
def readPb (s : State) : Byte :=
  let v := select s.ports.pbc (pbLevel s) s.ports.pb
  let v := if eepromOnPortB s && s.eeprom.pull then putBit v 4 false else v
  let v := if comparatorOnPin s then putBit v 2 s.pins.cmpOut else v
  select (pbAnalog s ||| pbOscillator s) (Config.freeRead s.draws) v

end Sys2Proof.Machine
end

