-- ==== Sys2Proof/Machine/Ops.lean ====
section
/-! DEFINITION. The named operations over storage, registers and the stack, the interrupt mechanism (taking an interrupt
and returning from one) and the watchdog's clear. -/

namespace Sys2Proof.Machine

/-! ## Sparse memories -/

/-- What the address holds; an unlisted address reads as 0 (log 6, 7, 8). -/
def Memory.read {w : Nat} : Memory w → Nat → BitVec w
  | [], _ => 0#w
  | (k, x) :: rest, a => if a = k then x else Memory.read rest a

/-- The memory with `v` at the address, in canonical form. -/
def Memory.write {w : Nat} : Memory w → Nat → BitVec w → Memory w
  | [], a, v => if v = 0#w then [] else [(a, v)]
  | (k, x) :: rest, a, v =>
    if a < k then (if v = 0#w then (k, x) :: rest else (a, v) :: (k, x) :: rest)
    else if a = k then (if v = 0#w then rest else (a, v) :: rest)
    else (k, x) :: Memory.write rest a v

/-- The canonical form: addresses strictly rising and below the bound, no value equal to what an unlisted one reads as. -/
def Memory.wf {w : Nat} (bound : Nat) : Memory w → Bool
  | [] => true
  | (k, x) :: rest => decide (k < bound) && x != 0#w && rest.all (fun p => decide (k < p.1)) && Memory.wf bound rest

/-- `PMRead` (R121): total and without side effect. -/
def pmRead (s : State) (a : PAddr) : PWord := Memory.read s.program a.toNat

/-- The fetch (R14, R121): the word at PC. -/
def fetchWord (s : State) : PWord := pmRead s s.pc

/-- The state in which the fetched instruction executes: PC is already the next address (R13). -/
def afterFetch (s : State) : State := s.withPc (s.pc + 1#11)

/-! ## Program counter, cycles, stack -/

/-- Instruction cycles charged (R440). -/
def State.charge (s : State) (n : Nat) : State := s.withCycles (s.cycles + n)

/-- `skip` (R270): the next instruction is passed over, for one more cycle. -/
def State.skip (s : State) : State := (s.withPc (s.pc + 1#11)).charge 1

/-- Skip when the condition holds. -/
def State.skipIf (s : State) (b : Bool) : State := if b then s.skip else s

/-- `Push` (R38): with four entries the oldest is lost. -/
def State.push (s : State) (v : PAddr) : State := s.withStack ((s.stack ++ [v]).drop (s.stack.length + 1 - 4))

/-- `pc <- Pop()` (R39): the newest entry leaves the stack for PC; with no entry PC is a free value (U5). -/
def State.popPc (s : State) : State :=
  (s.withPc (s.stack.getLastD (Config.freePc s.draws))).withStack s.stack.dropLast

/-! ## The register map -/

/-- What stands at a data address (R52, R123, R127). -/
inductive Loc where
  | reg (r : Sfr)
  | ram
  | undefined
  deriving DecidableEq, Repr

/-- The location at a data address: a register of SFR_MAP, RAM from GPR_BASE on, or nothing. -/
def locate (c : Config) (e : DAddr) : Loc :=
  match c.sfrMap.lookup e with
  | some r => .reg r
  | none => if c.gprBase ≤ e then .ram else .undefined

/-- STATUS as read (R125): bits 7 and 6 are free. -/
def statusByte (s : State) : Byte :=
  let p := s.cfg.statusPos
  (Config.freeRead s.draws &&& 0xC0#8) ||| bitAt 5 s.status.timeOut ||| bitAt 4 s.status.pdf
    ||| bitAt p.ov s.status.ov ||| bitAt p.z s.status.z ||| bitAt p.ac s.status.ac ||| bitAt p.c s.status.c

/-- STATUS after a write (R47): only OV, Z, AC and C take bits of the byte. -/
def statusWritten (s : State) (v : Byte) : Status :=
  let p := s.cfg.statusPos
  { s.status with ov := getBit v p.ov, z := getBit v p.z, ac := getBit v p.ac, c := getBit v p.c }

/-- INTC0 as read (R55, R80): the bit that is not implemented is free. -/
def intc0Byte (s : State) : Byte :=
  let p := s.cfg.intcPos
  let i := s.intc
  let implemented := bitAt 0 true ||| bitAt p.eei true ||| bitAt p.et0i true ||| bitAt p.et1i true ||| bitAt p.eif true
    ||| bitAt p.t0f true ||| bitAt p.t1f true
  select implemented
    (bitAt 0 i.emi ||| bitAt p.eei i.eei ||| bitAt p.et0i i.et0i ||| bitAt p.et1i i.et1i ||| bitAt p.eif i.eif
      ||| bitAt p.t0f i.t0f ||| bitAt p.t1f i.t1f)
    (Config.freeRead s.draws)

/-- INTC0 after a write (R55, R126). -/
def intc0Written (s : State) (v : Byte) : Interrupts :=
  let p := s.cfg.intcPos
  { s.intc with emi := getBit v 0, eei := getBit v p.eei, et0i := getBit v p.et0i, et1i := getBit v p.et1i,
                eif := getBit v p.eif, t0f := getBit v p.t0f, t1f := getBit v p.t1f }

/-- INTC1 as read (R56, R80). -/
def intc1Byte (s : State) : Byte :=
  let p := s.cfg.intcPos
  select (bitAt p.eci true ||| bitAt p.cf true) (bitAt p.eci s.intc.eci ||| bitAt p.cf s.intc.cf)
    (Config.freeRead s.draws)

/-- INTC1 after a write (R56, R126). -/
def intc1Written (s : State) (v : Byte) : Interrupts :=
  let p := s.cfg.intcPos
  { s.intc with eci := getBit v p.eci, cf := getBit v p.cf }

/-- TMR0C as read (R58, R80): bit 5 is free. -/
def tmr0cByte (s : State) : Byte :=
  (s.tmr0.mode ++ 0#6) ||| bitAt 4 s.tmr0.on ||| bitAt 3 s.tmr0.edge ||| (0#5 ++ s.tmr0.psc)
    ||| (Config.freeRead s.draws &&& 0x20#8)

/-- Timer 0 after a write of TMR0C (R58, R126). Starting the timer leaves the counter (D26) and makes the prescaler's
phase free (R342, U14). Of a timer that is already on, the prescaler keeps its count and a new ratio applies to it (not
stated: DESIGN CHOICE, log 40). A measurement under way and an event not yet seen stay only if the timer stays on in its
mode (R349, R436, log 48). -/
def tmr0cWritten (s : State) (v : Byte) : Timer0 :=
  let t := s.tmr0
  let mode : BitVec 2 := v.extractLsb' 6 2
  let on := getBit v 4
  { t with mode := mode, on := on, edge := getBit v 3, psc := v.extractLsb' 0 3,
           prescaler := if on && !t.on then Config.freePhase s.draws else t.prescaler,
           pulse := if t.on && on && mode == t.mode then t.pulse else .idle,
           event := t.event && t.on && on && mode == t.mode }

/-- TMR1C as read (R60, R80): bits 5 and 2..0 are free. -/
def tmr1cByte (s : State) : Byte :=
  (s.tmr1.mode ++ 0#6) ||| bitAt 4 s.tmr1.on ||| bitAt 3 s.tmr1.edge ||| (Config.freeRead s.draws &&& 0x27#8)

/-- Timer 1 after a write of TMR1C (R60, R126; a measurement and an event: as Timer 0's, log 48). -/
def tmr1cWritten (s : State) (v : Byte) : Timer1 :=
  let t := s.tmr1
  let mode : BitVec 2 := v.extractLsb' 6 2
  let on := getBit v 4
  { t with mode := mode, on := on, edge := getBit v 3,
           pulse := if t.on && on && mode == t.mode then t.pulse else .idle,
           event := t.event && t.on && on && mode == t.mode }

/-- MISC as read (R65, R372): the stored byte, but for the comparator output flag, which shows the comparator's output
while the comparator is on and is free while it is off. -/
def miscByte (s : State) : Byte :=
  let p := s.cfg.miscPos.flag
  putBit s.analog.misc p (if comparatorOn s then s.pins.cmpOut else getBit (Config.freeRead s.draws) p)

/-- OPACn or CMPC as read (R66 to R69, U15): the stored byte, but for the output flag, which is free. -/
def analogByte (s : State) (p : AnalogPos) (stored : Byte) : Byte :=
  select (bitAt p.flag true) (Config.freeRead s.draws) stored

/-- The value a read of a register gives (R125). -/
def regValue (s : State) : Sfr → Byte
  | .iar => 0x00#8
  | .mp => 1#1 ++ s.mp
  | .acc => s.acc
  | .pcl => s.pc.extractLsb' 0 8
  | .tblp => s.tblp
  | .tblh => 0#1 ++ s.tblh
  | .wdts => s.wdts
  | .status => statusByte s
  | .intc0 => intc0Byte s
  | .intc1 => intc1Byte s
  | .tmr0 => s.tmr0.counter
  | .tmr0c => tmr0cByte s
  | .tmr1h => s.tmr1.counter.extractLsb' 8 8
  | .tmr1l => s.tmr1.buffer
  | .tmr1c => tmr1cByte s
  | .pa => readPa s
  | .pac => s.ports.pac
  | .pb => readPb s
  | .pbc => s.ports.pbc
  | .misc => miscByte s
  | .opac1 => analogByte s s.cfg.opac1Pos s.analog.opac1
  | .opac2 => analogByte s s.cfg.opac2Pos s.analog.opac2
  | .opac3 => analogByte s s.cfg.opac3Pos s.analog.opac3
  | .cmpc => analogByte s s.cfg.cmpcPos s.analog.cmpc

/-- The state after a read of a register: only TMR1H has a side effect (R125, R353). -/
def regAfterRead (s : State) : Sfr → State
  | .tmr1h => s.withTmr1 { s.tmr1 with buffer := s.tmr1.counter.extractLsb' 0 8 }
  | _ => s

/-- A write of Timer 0's data register (R344). -/
def tmr0Written (t : Timer0) (v : Byte) : Timer0 :=
  { t with preload := v, counter := if t.on then t.counter else v }

/-- A write of TMR1H (R352): the byte and the low-byte buffer go to the preload, and to the counter of a timer that is
off. -/
def tmr1hWritten (t : Timer1) (v : Byte) : Timer1 :=
  { t with preload := v ++ t.buffer, counter := if t.on then t.counter else v ++ t.buffer }

/-- A write of a register (R126). A write of PCL is a jump in the page of PC, for one more cycle (R33, R284). -/
def regWrite (s : State) (v : Byte) : Sfr → State
  | .iar => s
  | .mp => s.withMp (v.extractLsb' 0 7)
  | .acc => s.withAcc v
  | .pcl => (s.withPc (s.pc.extractLsb' 8 3 ++ v)).charge 1
  | .tblp => s.withTblp v
  | .tblh => s
  | .wdts => s.withWdts v
  | .status => s.withStatus (statusWritten s v)
  | .intc0 => s.withIntc (intc0Written s v)
  | .intc1 => s.withIntc (intc1Written s v)
  | .tmr0 => s.withTmr0 (tmr0Written s.tmr0 v)
  | .tmr0c => s.withTmr0 (tmr0cWritten s v)
  | .tmr1h => s.withTmr1 (tmr1hWritten s.tmr1 v)
  | .tmr1l => s.withTmr1 { s.tmr1 with buffer := v }
  | .tmr1c => s.withTmr1 (tmr1cWritten s v)
  | .pa => s.withPorts { s.ports with pa := v }
  | .pac => s.withPorts { s.ports with pac := v }
  | .pb => s.withPorts { s.ports with pb := v }
  | .pbc => s.withPorts { s.ports with pbc := v }
  | .misc => s.withAnalog { s.analog with misc := v }
  | .opac1 => s.withAnalog { s.analog with opac1 := v }
  | .opac2 => s.withAnalog { s.analog with opac2 := v }
  | .opac3 => s.withAnalog { s.analog with opac3 := v }
  | .cmpc => s.withAnalog { s.analog with cmpc := v }

/-! ## Interrupts -/

/-- The four sources (R320). -/
inductive IrqSource where
  | external
  | timer0
  | timer1
  | comparator
  deriving DecidableEq, Repr

/-- The vector (R122, R320). -/
def IrqSource.vector : IrqSource → PAddr
  | .external => 0x004#11
  | .timer0 => 0x008#11
  | .timer1 => 0x00C#11
  | .comparator => 0x010#11

/-- The request flag of a source (R320). -/
def Interrupts.flag (i : Interrupts) : IrqSource → Bool
  | .external => i.eif
  | .timer0 => i.t0f
  | .timer1 => i.t1f
  | .comparator => i.cf

/-- The enable bit of a source (R320). -/
def Interrupts.enable (i : Interrupts) : IrqSource → Bool
  | .external => i.eei
  | .timer0 => i.et0i
  | .timer1 => i.et1i
  | .comparator => i.eci

/-- The request flag of a source set to `b`. -/
def Interrupts.setFlag (i : Interrupts) (b : Bool) : IrqSource → Interrupts
  | .external => { i with eif := b }
  | .timer0 => { i with t0f := b }
  | .timer1 => { i with t1f := b }
  | .comparator => { i with cf := b }

/-- Requested and enabled (R325). -/
def Interrupts.pending (i : Interrupts) (k : IrqSource) : Bool := i.flag k && i.enable k

/-- The interrupt the core accepts at this boundary, if any (R325, R327, R330): the pending source of the highest
priority, when EMI = 1 and the stack is not full. -/
def acceptable (s : State) : Option IrqSource :=
  if s.intc.emi && decide (s.stack.length < 4) then
    if s.intc.pending .external then some .external
    else if s.intc.pending .timer0 then some .timer0
    else if s.intc.pending .timer1 then some .timer1
    else if s.intc.pending .comparator then some .comparator
    else none
  else none

/-- Taking an interrupt (R326): PC is pushed, PC becomes the vector, EMI and the source's request flag are cleared; nothing
else is saved or changed. The cycles it takes are not stated: a parameter (log 11). -/
def enterInterrupt (k : IrqSource) (s : State) : State :=
  (((s.push s.pc).withPc k.vector).withIntc { s.intc.setFlag false k with emi := false }).charge s.cfg.entryCycles

/-- Returning from an interrupt (R283, R329): PC is popped and EMI set. -/
def returnFromInterrupt (s : State) : State := s.popPc.withIntc { s.intc with emi := true }

/-- A request: the flag is set (R321 to R324); a flag that goes from 0 to 1 wakes a halted core (R394). -/
def requestInterrupt (k : IrqSource) (s : State) : State :=
  let t := s.withIntc (s.intc.setFlag true k)
  if s.intc.flag k then t else t.withMode .running

/-! ## Watchdog -/

/-- The watchdog's counter and prescaler at 0 (R364). -/
def restartWdt (s : State) : State := s.withWdt { s.wdt with count := 0, prescaler := 0 }

/-- A watchdog clear that succeeds (R298): the counters, TO and PDF are 0. -/
def clearWdt (s : State) : State := (restartWdt s).withStatus { s.status with timeOut := false, pdf := false }

/-- A clear instruction of the method the mask option did not select (U10): the full clear or nothing. -/
def clearWdtOtherMethod (s : State) : State := if Config.freeWdtClear s.draws then clearWdt s else s

end Sys2Proof.Machine
end

