-- ==== Sys2Proof/Machine/EepromAgent.lean ====
section
/-! DEFINITION. The serial EEPROM as an agent on two lines (60_exceptions.md section 9, D22). What the spec leaves open
(a second data byte, both lines changing at once, an interrupted write) is free, but for what follows a device byte that is
not acknowledged (log 41). `d` is the state's draw. -/

namespace Sys2Proof.Machine

/-- Load the cell at the address counter and present its first bit (R406): a 0 pulls SDA low. -/
def Eeprom.sendNext (e : Eeprom) : Eeprom :=
  let b := Memory.read e.cells e.counter.toNat
  { e with phase := .send 0 b, pull := !b.getLsbD 7 }

/-- Back to waiting for a START, SDA released. -/
def Eeprom.idle (e : Eeprom) : Eeprom := { e with phase := .standby, pull := false }

/-- A byte is complete (R403, R404, R405, R410): the device address 1010000 is acknowledged unless a write is under way,
a data address goes to the counter, and each is acknowledged. After a device byte it does not acknowledge, the EEPROM
ignores the clocks until the next START (not stated: DESIGN CHOICE, log 41). -/
def Eeprom.received (w : EepromByte) (bits : Byte) (e : Eeprom) : Eeprom :=
  match w with
  | .device =>
    if bits.extractLsb' 1 7 = 0b1010000#7 ∧ e.busy = 0 then { e with phase := .acknowledge .device bits, pull := true }
    else e.idle
  | .address => { e with counter := bits.extractLsb' 0 7, phase := .acknowledge .address bits, pull := true }
  | .data => { e with phase := .acknowledge .data bits, pull := true }

/-- The end of the ninth clock of a received byte: SDA is released, and the next item begins (R403, R406, R407, R409). -/
def Eeprom.acknowledged (w : EepromByte) (b : Byte) (e : Eeprom) : Eeprom :=
  match w with
  | .device => if b.getLsbD 0 then e.sendNext else { e with phase := .receive .address 0 0#8, pull := false }
  | .address => { e with phase := .receive .data 0 0#8, pull := false }
  | .data => { e with phase := .written b 0, pull := false }

/-- A falling edge of SCL: the EEPROM changes its own output (R401). Whether it acknowledges a second or later data byte
before STOP is not stated (R409): free, for each byte (DESIGN CHOICE, log 41). -/
def Eeprom.clockFall (d : Nat) (e : Eeprom) : Eeprom :=
  match e.phase with
  | .standby => e
  | .receive w n bits => if n = 8 then e.received w bits else e
  | .acknowledge w b => e.acknowledged w b
  | .send n b =>
    if n = 8 then { e with counter := e.counter + 1, phase := .await false, pull := false }
    else { e with pull := !b.getLsbD (7 - n) }
  | .await ok => if ok then e.sendNext else e.idle
  | .written _ n =>
    if n % 9 = 8 then { e with pull := (Config.freeEeprom d 0).getLsbD 0 }
    else if n % 9 = 0 then { e with pull := false }
    else e

/-- A rising edge of SCL: SDA is sampled (R401). -/
def Eeprom.clockRise (sda : Bool) (e : Eeprom) : Eeprom :=
  match e.phase with
  | .standby => e
  | .receive w n bits => { e with phase := .receive w (n + 1) (bits.extractLsb' 0 7 ++ BitVec.ofBool sda) }
  | .acknowledge _ _ => e
  | .send n b => { e with phase := .send (n + 1) b }
  | .await _ => { e with phase := .await (!sda) }
  | .written b n => { e with phase := .written b (n + 1) }

/-- START (R402): a transfer begins anew. One in place of the STOP of a byte write drops the data byte, so nothing is
written (not stated: DESIGN CHOICE, log 41). -/
def Eeprom.start (e : Eeprom) : Eeprom := { e with phase := .receive .device 0 0#8, pull := false }

/-- STOP (R402, R409): after one data byte the write cycle starts; after a second one has begun the spec does not state
what is written, so a free byte goes to a free cell. -/
def Eeprom.stop (d writeTime : Nat) (e : Eeprom) : Eeprom :=
  match e.phase with
  | .written b n =>
    let a := if n ≤ 1 then e.counter else (Config.freeEeprom d 1).extractLsb' 0 7
    let v := if n ≤ 1 then b else Config.freeEeprom d 2
    let c := if n ≤ 1 then e.counter + 1 else (Config.freeEeprom d 3).extractLsb' 0 7
    { e.idle with cells := Memory.write e.cells a.toNat v, counter := c, writing := a, busy := writeTime }
  | _ => e.idle

/-- SDA has changed to `sda` while SCL is at `scl`: START or STOP when SCL is high (R401, R402). -/
def Eeprom.dataChange (d writeTime : Nat) (sda scl : Bool) (e : Eeprom) : Eeprom :=
  if scl then (if sda then e.stop d writeTime else e.start) else e

/-- SCL has changed to `scl` while SDA is at `sda`. -/
def Eeprom.clockChange (d : Nat) (sda scl : Bool) (e : Eeprom) : Eeprom :=
  if scl then e.clockRise sda else e.clockFall d

/-- The EEPROM sees the lines at `sda` and `scl`. When both have changed at once their order is free. -/
def Eeprom.observe (d writeTime : Nat) (sda scl : Bool) (e : Eeprom) : Eeprom :=
  let e' :=
    match sda != e.seenSda, scl != e.seenScl with
    | false, false => e
    | true, false => e.dataChange d writeTime sda scl
    | false, true => e.clockChange d sda scl
    | true, true =>
      if Config.freeLineOrder d then (e.dataChange d writeTime sda e.seenScl).clockChange d sda scl
      else (e.clockChange d e.seenSda scl).dataChange d writeTime sda scl
  { e' with seenSda := sda, seenScl := scl }

/-- The EEPROM's reaction to the present lines (D22); its own new output is then part of what it has seen. A change draws. -/
def senseEeprom (s : State) : State :=
  if hasEeprom s then
    let sda := sdaLine s
    let scl := sclLine s
    let changed := sda != s.eeprom.seenSda || scl != s.eeprom.seenScl
    let t := s.withEeprom (s.eeprom.observe s.draws s.cfg.writeTime sda scl)
    let t := t.withEeprom { t.eeprom with seenSda := sdaLine t }
    if changed then t.withDraws (t.draws + 1) else t
  else s

/-- One interval passes at the EEPROM: the write's remaining time goes down (R410). -/
def passEeprom (s : State) : State := s.withEeprom { s.eeprom with busy := s.eeprom.busy - 1 }

end Sys2Proof.Machine
end

