-- ==== Sys2Proof/Machine/Reset.lean ====
section
/-! DEFINITION. The resets within a run (70_reset_and_hazards.md section 1; the table of R79). What a column marks unknown
or a draw is a free value here. -/

namespace Sys2Proof.Machine

/-- The columns of R79. LVR is the column of RES (R424). -/
inductive ResetKind where
  | powerOn      -- POR
  | wdtRunning   -- WDTn
  | resRunning   -- RESn
  | resHalted    -- RESh
  | wdtHalted    -- WDTh, the warm reset
  deriving DecidableEq, Repr

/-- The RAM after a power-on within a run: every location from GPR_BASE on holds a free byte (R36, R79). -/
def freeRamContents (d : Nat) (base : Nat) : Memory 8 :=
  (List.range 128).foldl (fun m a => if base ≤ a then Memory.write m a (Config.freeRam d a) else m) []

/-- A free `wdt_last` (R73, D16). -/
def freeWdtLast (d : Nat) : WdtLast :=
  let v := Config.freeReset d 6
  if v.getLsbD 0 then .first else if v.getLsbD 1 then .second else .neither

/-- The EEPROM after its own power-up (R77, R411, U17): the cells are kept, but for a cell whose write was under way; the
counter is unknown, and the device waits for a START. The line levels it saw last are not stated after a power-on: free
values (DESIGN CHOICE, log 8), so the first look may or may not be a START or STOP. -/
def eepromPowerUp (d : Nat) (e : Eeprom) : Eeprom :=
  { e with cells := if e.busy = 0 then e.cells else Memory.write e.cells e.writing.toNat (Config.freeEeprom d 4)
           counter := (Config.freeEeprom d 5).extractLsb' 0 7
           phase := .standby, busy := 0, pull := false
           seenSda := (Config.freeEeprom d 6).getLsbD 0, seenScl := (Config.freeEeprom d 7).getLsbD 0 }

/-- STATUS after a reset (R40, R46, R79, R426). -/
def statusAfterReset (k : ResetKind) (d : Nat) (f : Status) : Status :=
  match k with
  | .powerOn =>
    let v := Config.freeReset d 7
    { ov := v.getLsbD 3, z := v.getLsbD 2, ac := v.getLsbD 1, c := v.getLsbD 0, pdf := false, timeOut := false }
  | .wdtRunning => { f with timeOut := true }
  | .resRunning => f
  | .resHalted => { f with timeOut := false, pdf := true }
  | .wdtHalted => { f with timeOut := true, pdf := true }

/-- What every reset does (R420, R31, R37, R72 to R75): PC at 000H, the stack empty, the WDT cleared, the core running;
wdt_last and the PFD flip-flop are draws. -/
def resetCommon (k : ResetKind) (s : State) : State :=
  { s with
    pc := 0x000#11
    stack := []
    wdt := { count := 0, prescaler := 0, last := freeWdtLast s.draws }
    pfd := (Config.freeReset s.draws 8).getLsbD 0
    mode := .running
    status := statusAfterReset k s.draws s.status
    draws := s.draws + 1 }

/-- What the four full resets do besides (R79): control registers and ports at their reset values, timers off with unknown
counts, edge detectors with unknown previous levels (R76, log 45), and the clock output's phase, which the spec does not
state (DESIGN CHOICE, free, log 55). -/
def resetPlatform (s : State) : State :=
  { s with
    wdts := 0x07#8
    intc := { emi := false, eei := false, et0i := false, et1i := false, eif := false, t0f := false, t1f := false,
              eci := false, cf := false }
    tmr0 := { counter := (Config.freeReset s.draws 0).extractLsb' 0 8
              preload := (Config.freeReset s.draws 1).extractLsb' 0 8
              mode := 0b00#2, on := false, edge := false, psc := 0b100#3, prescaler := 0, pulse := .idle,
              event := false }
    tmr1 := { counter := Config.freeReset s.draws 2, preload := Config.freeReset s.draws 3
              buffer := (Config.freeReset s.draws 4).extractLsb' 0 8
              mode := 0b00#2, on := false, edge := true, pulse := .idle, event := false }
    ports := { pa := 0xFF#8, pac := 0xFF#8, pb := 0xFF#8, pbc := 0xFF#8 }
    analog := { misc := 0x80#8, opac1 := 0x00#8, opac2 := 0x00#8, opac3 := 0x00#8, cmpc := 0x00#8 }
    seen := { pa := (Config.freeReset s.draws 5).extractLsb' 0 8
              pb1 := (Config.freeReset s.draws 5).getLsbD 8
              cmp := (Config.freeReset s.draws 5).getLsbD 9
              cnt := (Config.freeReset s.draws 5).getLsbD 10 }
    oscDivider := (Config.freeReset s.draws 13).extractLsb' 0 2
    draws := s.draws + 1 }

/-- What a power-on does besides (R421, R79): the registers and RAM a full reset keeps are unknown. -/
def resetContents (s : State) : State :=
  { s with
    acc := (Config.freeReset s.draws 9).extractLsb' 0 8
    mp := (Config.freeReset s.draws 10).extractLsb' 0 7
    tblp := (Config.freeReset s.draws 11).extractLsb' 0 8
    tblh := (Config.freeReset s.draws 12).extractLsb' 0 7
    ram := freeRamContents s.draws s.cfg.gprBase.toNat
    eeprom := eepromPowerUp s.draws s.eeprom
    draws := s.draws + 1 }

/-- A reset (R420 to R427). The warm reset keeps everything else, but for Timer 0's prescaler, of which R79 says "not
stated". -/
def applyReset (k : ResetKind) (s : State) : State :=
  match k with
  | .powerOn => resetContents (resetPlatform (resetCommon k s))
  | .wdtRunning => resetPlatform (resetCommon k s)
  | .resRunning => resetPlatform (resetCommon k s)
  | .resHalted => resetPlatform (resetCommon k s)
  | .wdtHalted => (resetCommon k s).withTmr0 { s.tmr0 with prescaler := Config.freePhase s.draws }

/-- A low pulse on RES, or a low voltage reset: the column depends on the core's mode (R422, R424). -/
def resReset (s : State) : State :=
  match s.mode with
  | .running => applyReset .resRunning s
  | .halted => applyReset .resHalted s

/-- A watchdog time-out (R363, R396, R423, R425). -/
def wdtReset (s : State) : State :=
  match s.mode with
  | .running => applyReset .wdtRunning s
  | .halted => applyReset .wdtHalted s

end Sys2Proof.Machine
end

