-- ==== Sys2Proof/Machine/Timers.lean ====
section
/-! DEFINITION. The timers and the watchdog (60_exceptions.md sections 3 to 5): what one clock and one pin transition do
to each. -/

namespace Sys2Proof.Machine

/-- The modes of a timer (R58): TnM1:TnM0. -/
def modeCounterSource : BitVec 2 := 0b00#2
def modeEventCount : BitVec 2 := 0b01#2
def modeTimer : BitVec 2 := 0b10#2
def modePulseWidth : BitVec 2 := 0b11#2

/-- The PFD flip-flop toggles at an overflow of the timer mask option 7 selects (R74, R386). -/
def clockPfd (src : PfdSource) (s : State) : State := if s.cfg.opt.pfdSource = src then s.withPfd (!s.pfd) else s

/-- One count clock of Timer 0 (R343): at FFH the preload is loaded, T0F requested and the PFD clocked. -/
def countTimer0 (s : State) : State :=
  let t := s.tmr0
  if t.counter = 0xFF#8 then
    requestInterrupt .timer0 (clockPfd .timer0 (s.withTmr0 { t with counter := t.preload }))
  else s.withTmr0 { t with counter := t.counter + 1 }

/-- One count clock of Timer 1 (R343). -/
def countTimer1 (s : State) : State :=
  let t := s.tmr1
  if t.counter = 0xFFFF#16 then
    requestInterrupt .timer1 (clockPfd .timer1 (s.withTmr1 { t with counter := t.preload }))
  else s.withTmr1 { t with counter := t.counter + 1 }

/-- What a pin transition in pulse width mode does to the measurement (R349): a start after none, an end after a start;
any other transition is ignored. -/
def PulsePhase.onEdge (start : Bool) : PulsePhase → PulsePhase
  | .idle => if start then .starting else .idle
  | .starting => if start then .starting else .brief
  | .measuring => if start then .measuring else .stopping
  | .stopping => .stopping
  | .brief => .brief

/-- The measurement after a timer clock, which sees the pending transitions (R349). -/
def PulsePhase.next : PulsePhase → PulsePhase
  | .idle => .idle
  | .starting => .measuring
  | .measuring => .measuring
  | .stopping => .idle
  | .brief => .idle

/-- Whether TnON stays 1 at a timer clock: the hardware clears it when the clock sees the end of the pulse (R349). -/
def PulsePhase.staysOn : PulsePhase → Bool
  | .idle => true
  | .starting => true
  | .measuring => true
  | .stopping => false
  | .brief => false

/-- Whether a timer clock counts: within the pulse it does, before it it does not; at a clock that first sees a transition
"the count may be off by a small amount" (R349), so there it is free (log 54). -/
def PulsePhase.counts (d item : Nat) : PulsePhase → Bool
  | .idle => false
  | .starting => Config.freePulse d item
  | .measuring => true
  | .stopping => Config.freePulse d (item + 1)
  | .brief => Config.freePulse d (item + 2)

/-- One timer clock of Timer 0 in pulse width mode (R349). -/
def pulseTimer0 (s : State) : State :=
  let p := s.tmr0.pulse
  let t := s.withTmr0 { s.tmr0 with on := p.staysOn, pulse := p.next }
  if p.counts s.draws 0 then countTimer0 t else t

/-- One timer clock of Timer 1 in pulse width mode (R349, R354). -/
def pulseTimer1 (s : State) : State :=
  let p := s.tmr1.pulse
  let t := s.withTmr1 { s.tmr1 with on := p.staysOn, pulse := p.next }
  if p.counts s.draws 3 then countTimer1 t else t

/-- One internal timer clock of Timer 0 (R341): on, it counts in timer mode and measures in pulse width mode. -/
def tickTimer0 (s : State) : State :=
  if !s.tmr0.on then s
  else if s.tmr0.mode = modeTimer then countTimer0 s
  else if s.tmr0.mode = modePulseWidth then pulseTimer0 s
  else s

/-- One internal timer clock of Timer 1 (R351): on, it counts in timer mode and measures in pulse width mode. -/
def tickTimer1 (s : State) : State :=
  if !s.tmr1.on then s
  else if s.tmr1.mode = modeTimer then countTimer1 s
  else if s.tmr1.mode = modePulseWidth then pulseTimer1 s
  else s

/-- In event count mode a timer clock of Timer 0 sees an active transition that has come since the last one, and counts it
(R347, R436). -/
def seeEvent0 (s : State) : State :=
  if s.tmr0.on && s.tmr0.mode == modeEventCount && s.tmr0.event then
    countTimer0 (s.withTmr0 { s.tmr0 with event := false })
  else s

/-- In event count mode a timer clock of Timer 1 sees an active transition that has come since the last one, and counts it
(R347, R436). -/
def seeEvent1 (s : State) : State :=
  if s.tmr1.on && s.tmr1.mode == modeEventCount && s.tmr1.event then
    countTimer1 (s.withTmr1 { s.tmr1 with event := false })
  else s

/-- One instruction cycle at Timer 1 (R351): its timer clock, at which an event is seen too. -/
def cycleTimer1 (s : State) : State := tickTimer1 (seeEvent1 s)

/-- One system clock period at Timer 0 (R342): an event is seen, with no prescaler (R341, log 54); the prescaler counts, and
gives a timer clock every 2^PSC periods. -/
def systemClockTimer0 (s : State) : State :=
  let s := seeEvent0 s
  let p := s.tmr0.prescaler + 1
  let s := s.withTmr0 { s.tmr0 with prescaler := p }
  if p.toNat % 2 ^ s.tmr0.psc.toNat == 0 then tickTimer0 s else s

/-- One system clock period (R342, R381): the clock output's divider and Timer 0. -/
def systemClock (s : State) : State := systemClockTimer0 (s.withOscDivider (s.oscDivider + 1))

/-- An active transition of pin TMR0 in event count mode. With the system clock running the next timer clock sees it (R436),
and one that is still unseen counts now, so the count lags by one at most; in HALT it counts at once (R347, log 54). -/
def eventTimer0 (clocked : Bool) (s : State) : State :=
  let s := seeEvent0 s
  if clocked then s.withTmr0 { s.tmr0 with event := true } else countTimer0 s

/-- An active transition of pin TMR1 in event count mode (R354). -/
def eventTimer1 (clocked : Bool) (s : State) : State :=
  let s := seeEvent1 s
  if clocked then s.withTmr1 { s.tmr1 with event := true } else countTimer1 s

/-- A transition of pin TMR0; `clocked`: the system clock runs. In event count mode the active one, low to high for T0E = 0
and high to low for T0E = 1, is a count clock (R347). In pulse width mode T0E = 0 starts on the fall and ends on the rise,
T0E = 1 the other way round (R349). The next timer clock sees either. -/
def transitionTimer0 (clocked rising : Bool) (s : State) : State :=
  let t := s.tmr0
  if !t.on then s
  else if t.mode = modeEventCount then (if rising != t.edge then eventTimer0 clocked s else s)
  else if t.mode = modePulseWidth then s.withTmr0 { t with pulse := t.pulse.onEdge (rising == t.edge) }
  else s

/-- A transition of pin TMR1 (R354). -/
def transitionTimer1 (clocked rising : Bool) (s : State) : State :=
  let t := s.tmr1
  if !t.on then s
  else if t.mode = modeEventCount then (if rising != t.edge then eventTimer1 clocked s else s)
  else if t.mode = modePulseWidth then s.withTmr1 { t with pulse := t.pulse.onEdge (rising == t.edge) }
  else s

/-- A transition of the comparator or OPA output that Timer 0 counts in mode 00 (R348). -/
def transitionCountSource (rising : Bool) (s : State) : State :=
  if s.tmr0.on && s.tmr0.mode == modeCounterSource && rising != s.tmr0.edge then countTimer0 s else s

/-- One clock of the watchdog (R360, R362, R363): 256 counts, then 2^WS of the prescaler, make a time-out. A new WS applies
to the running period (R365); when the prescaler is already past it, the time-out comes at its next multiple of 2^WS (not
stated: DESIGN CHOICE, log 29). -/
def clockWdt (s : State) : State :=
  if !s.cfg.opt.wdtEnabled then s
  else
    let c := s.wdt.count + 1
    if c = 0#8 then
      let p := s.wdt.prescaler + 1
      let s := s.withWdt { s.wdt with count := c, prescaler := p }
      if p.toNat % 2 ^ (s.wdts.extractLsb' 0 3).toNat = 0 then wdtReset s else s
    else s.withWdt { s.wdt with count := c }

/-- A timer's mode bits have changed while the timer was on (R356, U11): `before` and `after` an instruction. -/
def timerModeClash (before after : State) : Bool :=
  (before.tmr0.on && after.tmr0.mode != before.tmr0.mode) || (before.tmr1.on && after.tmr1.mode != before.tmr1.mode)

end Sys2Proof.Machine
end

