-- ==== Sys2Proof/Machine/Agents.lean ====
section
/-! DEFINITION. The agents between two core steps (R6, D19): edge detection on the inputs, the clocks of one instruction
cycle, and the events of the environment. -/

namespace Sys2Proof.Machine

/-- A transition of the INT pin (R321): INTES1 enables the falling edge, INTES0 the rising one. -/
def transitionInt (rising : Bool) (s : State) : State :=
  let p := s.cfg.miscPos
  if getBit s.analog.misc (if rising then p.intes0 else p.intes1) then requestInterrupt .external s else s

/-- A change of the comparator's output (R323, R373): CMPES selects the falling edge only or both edges. -/
def transitionComparator (rising : Bool) (s : State) : State :=
  if !rising || getBit s.analog.misc s.cfg.miscPos.cmpes == s.cfg.cmpesBoth then requestInterrupt .comparator s else s

/-- A falling edge on a PA pin whose wake-up option is on wakes the core (R395). -/
def wakeOnPa (before now : Byte) (s : State) : State :=
  if before &&& ~~~now &&& s.cfg.opt.paWake = 0#8 then s else s.withMode .running

/-- The edge detectors look at the inputs (R76): INT and TMR0 on PA1, TMR1 on PB1 (R384), the comparator, the counted
signal, the wake-up pins, and the EEPROM's lines. -/
def sense (s : State) : State :=
  let clocked := s.mode == .running
  let old := s.seen
  let pa := paLevel s
  let pb1 := getBit (pbLevel s) 1
  let cmp := s.pins.cmpOut
  let cnt := s.pins.cntSrc
  let s := s.withSeen { pa := pa, pb1 := pb1, cmp := cmp, cnt := cnt }
  let s := if getBit pa 1 != getBit old.pa 1 then transitionTimer0 clocked (getBit pa 1) (transitionInt (getBit pa 1) s)
    else s
  let s := if pb1 != old.pb1 then transitionTimer1 clocked pb1 s else s
  let s := if cmp != old.cmp then transitionComparator cmp s else s
  let s := if cnt != old.cnt then transitionCountSource cnt s else s
  senseEeprom (wakeOnPa old.pa pa s)

/-- One event of the environment (log 42). -/
def applyEvent (s : State) : Event → State
  | .pinA i driven level =>
    sense (s.withPins { s.pins with paLevel := putBit s.pins.paLevel i level, paDriven := putBit s.pins.paDriven i driven })
  | .pinB i driven level =>
    sense (s.withPins { s.pins with pbLevel := putBit s.pins.pbLevel i level, pbDriven := putBit s.pins.pbDriven i driven })
  | .sdaPin level => sense (s.withPins { s.pins with sda := level })
  | .sclPin level => sense (s.withPins { s.pins with scl := level })
  | .comparator level => sense (s.withPins { s.pins with cmpOut := level })
  | .countSource level => sense (s.withPins { s.pins with cntSrc := level })
  | .wdtOscillator => if s.cfg.opt.wdtClock = .rcOscillator then clockWdt s else s
  | .eepromDone => s.withEeprom { s.eeprom with busy := 0 }
  | .resLow => resReset s
  | .lowVoltage => if s.cfg.opt.lvrEnabled then resReset s else s
  | .powerOn => applyReset .powerOn s

/-- The environment's events of one interval. -/
def environment (s : State) : State :=
  match s.script with
  | [] => s
  | events :: rest => events.foldl applyEvent (s.withScript rest)

/-- The system clock's part of one instruction cycle (R342, R351, R362): four periods at Timer 0, one timer clock at Timer 1
and, with that option, one at the watchdog. A halted core has no system clock (R391). -/
def systemCycle (s : State) : State :=
  match s.mode with
  | .halted => s
  | .running =>
    let s := cycleTimer1 (systemClock (systemClock (systemClock (systemClock s))))
    if s.cfg.opt.wdtClock = .systemQuarter then clockWdt s else s

/-- One interval of the agents: an instruction cycle, or an idle interval of a halted core. -/
def agentInterval (s : State) : State := sense (environment (sense (passEeprom (systemCycle s))))

/-- `n` intervals. -/
def agentIntervals : Nat → State → State
  | 0, s => s
  | n + 1, s => agentIntervals n (agentInterval s)

/-- The agents' steps after a core step (D19): they see the ports as the core step left them, then run for the cycles it
charged; then the next step has a fresh draw. A reset in one of these cycles leaves the remaining ones to run (not stated:
DESIGN CHOICE, log 25). -/
def runAgents (s : State) : State :=
  let t := agentIntervals s.cycles (sense (s.withCycles 0))
  t.withDraws (t.draws + 1)

/-- A step of a halted core (R391): no instruction, one idle interval. -/
def idleStep (s : State) : State := runAgents (s.charge 1)

/-- A step that takes an interrupt (R14, R326). -/
def interruptStep (k : IrqSource) (s : State) : State := runAgents (enterInterrupt k s)

/-- What step adds after an instruction that began in `before` and ended in `after`: the agents' part, unless a timer's
mode was changed while the timer was on (R356, U11). -/
def finishInstruction (before after : State) : Host.Outcome State Fault Refusal :=
  if timerModeClash before after then .refused .timerModeChangedWhileOn else .next (runAgents after)

end Sys2Proof.Machine
end

