-- ==== Sys2Proof/Machine/Flags.lean ====
section
/-! DEFINITION. The adder, the decimal adjustment and the flag rules (40_arithmetic.md R200, R201, R214; 41_logic.md R220;
42_incdec_rotate.md R240). -/

namespace Sys2Proof.Machine

/-- Which of the four arithmetic flags an instruction writes, and with what; `none` leaves the flag (R41 to R44). -/
structure FlagUpdate where
  ov : Option Bool
  z : Option Bool
  ac : Option Bool
  c : Option Bool
  deriving DecidableEq, Repr

/-- The result of an operation and the flags it writes. -/
structure AluOut where
  value : Byte
  flags : FlagUpdate
  deriving DecidableEq, Repr

/-- True when the operation writes at least one flag (U6 tells such instructions apart). -/
def FlagUpdate.writes (u : FlagUpdate) : Bool := u.ov.isSome || u.z.isSome || u.ac.isSome || u.c.isSome

/-- The flags after an update; TO and PDF are never touched (R202, R220). -/
def FlagUpdate.apply (u : FlagUpdate) (f : Status) : Status :=
  { f with ov := u.ov.getD f.ov, z := u.z.getD f.z, ac := u.ac.getD f.ac, c := u.c.getD f.c }

/-- `add8` (R200): the sum modulo 256; C the carry out of bit 7, AC the carry out of bit 3, OV the exclusive or of the
carries into and out of bit 7, Z whether the byte is zero. -/
def add8 (a b : Byte) (cin : Bool) : AluOut :=
  let n := cin.toNat
  let sum := a.toNat + b.toNat + n
  let carry := decide (256 ≤ sum)
  let carry7 := decide (128 ≤ a.toNat % 128 + b.toNat % 128 + n)
  let r := BitVec.ofNat 8 sum
  { value := r
    flags := { ov := some (carry7 ^^ carry), z := some (r == 0#8),
               ac := some (decide (16 ≤ a.toNat % 16 + b.toNat % 16 + n)), c := some carry } }

/-- Subtraction (R201): addition of the one's complement; `cin` is 1 for SUB and C for SBC. -/
def sub8 (a b : Byte) (cin : Bool) : AluOut := add8 a (~~~b) cin

/-- A result that writes Z and no other flag: the logic group, INC and DEC (R220, R240). -/
def zeroFlagged (r : Byte) : AluOut :=
  { value := r, flags := { ov := none, z := some (r == 0#8), ac := none, c := none } }

/-- A result that writes no flag. -/
def unflagged (r : Byte) : AluOut := { value := r, flags := { ov := none, z := none, ac := none, c := none } }

/-- A result that writes C and no other flag. -/
def carryFlagged (r : Byte) (c : Bool) : AluOut :=
  { value := r, flags := { ov := none, z := none, ac := none, c := some c } }

/-- `DAA` (R214, D17): the low nibble is adjusted first, the high test sees its carry. -/
def daaOut (a : Byte) (ac c : Bool) : AluOut :=
  let lo := decide (9 < a.toNat % 16) || ac
  let t1 := a.toNat + (if lo then 0x06 else 0)
  let hi := decide (9 < t1 / 16) || c
  let t2 := t1 + (if hi then 0x60 else 0)
  carryFlagged (BitVec.ofNat 8 t2) hi

/-- Rotate right by one, bit 0 to bit 7 (R245). -/
def rotateRight (v : Byte) : Byte := v.extractLsb' 0 1 ++ v.extractLsb' 1 7

/-- Rotate left by one, bit 7 to bit 0 (R249). -/
def rotateLeft (v : Byte) : Byte := v.extractLsb' 0 7 ++ v.extractLsb' 7 1

/-- Rotate right through carry: the old C enters bit 7, bit 0 goes to C (R247). -/
def rotateRightCarry (v : Byte) (c : Bool) : AluOut :=
  carryFlagged (BitVec.ofBool c ++ v.extractLsb' 1 7) (v.getLsbD 0)

/-- Rotate left through carry: the old C enters bit 0, bit 7 goes to C (R251). -/
def rotateLeftCarry (v : Byte) (c : Bool) : AluOut :=
  carryFlagged (v.extractLsb' 0 7 ++ BitVec.ofBool c) (v.getLsbD 7)

/-- The two nibbles exchanged (R301). -/
def swapNibbles (v : Byte) : Byte := v.extractLsb' 0 4 ++ v.extractLsb' 4 4

end Sys2Proof.Machine
end

