-- ==== Sys2Proof/Machine/Operands.lean ====
section
/-! DEFINITION. The operand forms (20_memory.md R124 to R127): the effective address, MemRead and MemWrite, and the ways an
instruction delivers its result: to the accumulator, to data memory, or in a read-modify-write. -/

namespace Sys2Proof.Machine

/-- `EA(m)` (R124): MP when `m` is IAR's address, else `m`; one level only (D11). -/
def effAddr (s : State) (m : DAddr) : DAddr := if locate s.cfg m = .reg .iar then s.mp else m

/-- What stands at the operand's effective address. -/
def target (s : State) (m : DAddr) : Loc := locate s.cfg (effAddr s m)

/-- The value `MemRead(m)` gives (R125). -/
def memValue (s : State) (m : DAddr) : Byte :=
  match target s m with
  | .reg r => regValue s r
  | .ram => Memory.read s.ram (effAddr s m).toNat
  | .undefined => 0x00#8

/-- The state `MemRead(m)` leaves (R125). -/
def afterRead (s : State) (m : DAddr) : State :=
  match target s m with
  | .reg r => regAfterRead s r
  | .ram => s
  | .undefined => s

/-- `MemWrite(m, v)` (R126). -/
def memWrite (s : State) (m : DAddr) (v : Byte) : State :=
  match target s m with
  | .reg r => regWrite s v r
  | .ram => s.withRam (Memory.write s.ram (effAddr s m).toNat v)
  | .undefined => s

/-- A result to the accumulator, with the flags it writes. -/
def resultToAcc (s : State) (o : AluOut) : State := (s.withAcc o.value).withStatus (o.flags.apply s.status)

/-- OV, Z, AC and C at the free values of U6; TO and PDF as they are. -/
def freeStatus (s : State) : Status :=
  let f := Config.freeFlags s.draws
  { s.status with ov := f.getLsbD 3, z := f.getLsbD 2, ac := f.getLsbD 1, c := f.getLsbD 0 }

/-- A result to data memory, with the flags it writes. An operation that writes flags and has STATUS as its destination
leaves OV, Z, AC and C open (R47, U6). -/
def resultToMem (s : State) (m : DAddr) (o : AluOut) : State :=
  if o.flags.writes && target s m == .reg .status then s.withStatus (freeStatus s)
  else
    let t := memWrite s m o.value
    t.withStatus (o.flags.apply t.status)

/-- An instruction that reads `[m]` and puts its result in ACC, one cycle. -/
def readToAcc (f : Byte → AluOut) (m : DAddr) (s : State) : State :=
  (resultToAcc (afterRead s m) (f (memValue s m))).charge 1

/-- An instruction that reads `[m]` and writes its result there (R130), one cycle. -/
def readModifyWrite (f : Byte → AluOut) (m : DAddr) (s : State) : State :=
  (resultToMem (afterRead s m) m (f (memValue s m))).charge 1

/-- An instruction that writes `[m]` without reading it (R130), one cycle. -/
def writeOnly (o : AluOut) (m : DAddr) (s : State) : State := (resultToMem s m o).charge 1

/-- An instruction with an immediate operand whose result goes to ACC, one cycle. -/
def immediateToAcc (o : AluOut) (s : State) : State := (resultToAcc s o).charge 1

end Sys2Proof.Machine
end

