-- ==== Sys2Proof/Machine/Arithmetic.lean ====
section
/-! DEFINITION. The arithmetic instructions (40_arithmetic.md). -/

namespace Sys2Proof.Machine

/-- `ADD A,[m]` (R204): ACC + [m] to ACC, all four flags. -/
def execAddAM (m : DAddr) (s : State) : Host.Outcome State Fault Refusal :=
  .next (readToAcc (fun v => add8 s.acc v false) m s)

/-- `ADC A,[m]` (R207): ACC + [m] + C to ACC. -/
def execAdcAM (m : DAddr) (s : State) : Host.Outcome State Fault Refusal :=
  .next (readToAcc (fun v => add8 s.acc v s.status.c) m s)

/-- `SUB A,[m]` (R210): ACC - [m] to ACC. -/
def execSubAM (m : DAddr) (s : State) : Host.Outcome State Fault Refusal :=
  .next (readToAcc (fun v => sub8 s.acc v true) m s)

/-- `SBC A,[m]` (R212): ACC - [m] - not C to ACC. -/
def execSbcAM (m : DAddr) (s : State) : Host.Outcome State Fault Refusal :=
  .next (readToAcc (fun v => sub8 s.acc v s.status.c) m s)

/-- `ADDM A,[m]` (R205): ACC + [m] to [m], all four flags. -/
def execAddmAM (m : DAddr) (s : State) : Host.Outcome State Fault Refusal :=
  .next (readModifyWrite (fun v => add8 s.acc v false) m s)

/-- `ADCM A,[m]` (R208): ACC + [m] + C to [m]. -/
def execAdcmAM (m : DAddr) (s : State) : Host.Outcome State Fault Refusal :=
  .next (readModifyWrite (fun v => add8 s.acc v s.status.c) m s)

/-- `SUBM A,[m]` (R211): ACC - [m] to [m]. -/
def execSubmAM (m : DAddr) (s : State) : Host.Outcome State Fault Refusal :=
  .next (readModifyWrite (fun v => sub8 s.acc v true) m s)

/-- `SBCM A,[m]` (R213): ACC - [m] - not C to [m]. -/
def execSbcmAM (m : DAddr) (s : State) : Host.Outcome State Fault Refusal :=
  .next (readModifyWrite (fun v => sub8 s.acc v s.status.c) m s)

/-- `ADD A,x` (R206): ACC + x to ACC. -/
def execAddAX (x : Byte) (s : State) : Host.Outcome State Fault Refusal :=
  .next (immediateToAcc (add8 s.acc x false) s)

/-- `SUB A,x` (R209): ACC - x to ACC. -/
def execSubAX (x : Byte) (s : State) : Host.Outcome State Fault Refusal :=
  .next (immediateToAcc (sub8 s.acc x true) s)

/-- `DAA [m]` (R214): ACC decimal-adjusted to [m], which is not read; C only. -/
def execDaaM (m : DAddr) (s : State) : Host.Outcome State Fault Refusal :=
  .next (writeOnly (daaOut s.acc s.status.ac s.status.c) m s)

end Sys2Proof.Machine
end

