-- ==== Sys2Proof/Machine/Branch.lean ====
section
/-! DEFINITION. The branch, skip, call and return instructions (44_branch.md). -/

namespace Sys2Proof.Machine

/-- The skip at the end of SIZ and SDZ (R277, R278): when the result is zero. On PCL the instruction has jumped, and whether
it also skips is free (U7). -/
def skipOnZeroResult (r : Byte) (m : DAddr) (before after : State) : State :=
  if target before m = .reg .pcl then after.skipIf (r == 0#8 && Config.freeSkip before.draws)
  else after.skipIf (r == 0#8)

/-- `[m]` replaced by `f [m]`, and a skip if that is zero (R277, R278); no flag. -/
def modifyAndSkip (f : Byte → Byte) (m : DAddr) (s : State) : State :=
  let r := f (memValue s m)
  skipOnZeroResult r m s (readModifyWrite (fun v => unflagged (f v)) m s)

/-- `f [m]` to ACC, and a skip if that is zero (R274, R279, R280); no flag. -/
def loadAndSkip (f : Byte → Byte) (m : DAddr) (s : State) : State :=
  (readToAcc (fun v => unflagged (f v)) m s).skipIf (f (memValue s m) == 0#8)

/-- `[m]` read, and a skip if the test holds of it (R273, R275, R276). -/
def testAndSkip (test : Byte → Bool) (m : DAddr) (s : State) : State :=
  ((afterRead s m).charge 1).skipIf (test (memValue s m))

/-- `JMP addr` (R272): PC becomes the address. -/
def execJmpAddr (addr : PAddr) (s : State) : Host.Outcome State Fault Refusal :=
  .next ((s.withPc addr).charge 2)

/-- `SZ [m]` (R273): skip if [m] is zero. -/
def execSzM (m : DAddr) (s : State) : Host.Outcome State Fault Refusal :=
  .next (testAndSkip (fun v => v == 0#8) m s)

/-- `SZA [m]` (R274): [m] to ACC in any case (C17), skip if it is zero. -/
def execSzaM (m : DAddr) (s : State) : Host.Outcome State Fault Refusal :=
  .next (loadAndSkip (fun v => v) m s)

/-- `SZ [m].i` (R275): skip if bit i of [m] is 0. -/
def execSzMi (m : DAddr) (i : BitNo) (s : State) : Host.Outcome State Fault Refusal :=
  .next (testAndSkip (fun v => !getBit v i) m s)

/-- `SNZ [m].i` (R276): skip if bit i of [m] is 1. -/
def execSnzMi (m : DAddr) (i : BitNo) (s : State) : Host.Outcome State Fault Refusal :=
  .next (testAndSkip (fun v => getBit v i) m s)

/-- `SIZ [m]` (R277): [m] + 1 in place, skip if the result is zero. -/
def execSizM (m : DAddr) (s : State) : Host.Outcome State Fault Refusal :=
  .next (modifyAndSkip (fun v => v + 1) m s)

/-- `SDZ [m]` (R278): [m] - 1 in place, skip if the result is zero. -/
def execSdzM (m : DAddr) (s : State) : Host.Outcome State Fault Refusal :=
  .next (modifyAndSkip (fun v => v - 1) m s)

/-- `SIZA [m]` (R279): [m] + 1 to ACC, skip if it is zero. -/
def execSizaM (m : DAddr) (s : State) : Host.Outcome State Fault Refusal :=
  .next (loadAndSkip (fun v => v + 1) m s)

/-- `SDZA [m]` (R280): [m] - 1 to ACC, skip if it is zero. -/
def execSdzaM (m : DAddr) (s : State) : Host.Outcome State Fault Refusal :=
  .next (loadAndSkip (fun v => v - 1) m s)

/-- `RET` (R281): PC is popped. -/
def execRet (s : State) : Host.Outcome State Fault Refusal :=
  .next (s.popPc.charge 2)

/-- `RET A,x` (R282): PC is popped and x goes to ACC. -/
def execRetAX (x : Byte) (s : State) : Host.Outcome State Fault Refusal :=
  .next ((s.popPc.withAcc x).charge 2)

/-- `RETI` (R283): PC is popped and EMI set. -/
def execReti (s : State) : Host.Outcome State Fault Refusal :=
  .next ((returnFromInterrupt s).charge 2)

/-- `CALL addr` (R285): the return address is pushed, PC becomes the address. -/
def execCallAddr (addr : PAddr) (s : State) : Host.Outcome State Fault Refusal :=
  .next (((s.push s.pc).withPc addr).charge 2)

end Sys2Proof.Machine
end

