-- ==== Sys2Proof/Machine/IncDecRotate.lean ====
section
/-! DEFINITION. The increment, decrement and rotate instructions (42_incdec_rotate.md). -/

namespace Sys2Proof.Machine

/-- `INCA [m]` (R241): [m] + 1 to ACC, Z only. -/
def execIncaM (m : DAddr) (s : State) : Host.Outcome State Fault Refusal :=
  .next (readToAcc (fun v => zeroFlagged (v + 1)) m s)

/-- `INC [m]` (R242): [m] + 1 in place, Z only. -/
def execIncM (m : DAddr) (s : State) : Host.Outcome State Fault Refusal :=
  .next (readModifyWrite (fun v => zeroFlagged (v + 1)) m s)

/-- `DECA [m]` (R243): [m] - 1 to ACC, Z only. -/
def execDecaM (m : DAddr) (s : State) : Host.Outcome State Fault Refusal :=
  .next (readToAcc (fun v => zeroFlagged (v - 1)) m s)

/-- `DEC [m]` (R244): [m] - 1 in place, Z only. -/
def execDecM (m : DAddr) (s : State) : Host.Outcome State Fault Refusal :=
  .next (readModifyWrite (fun v => zeroFlagged (v - 1)) m s)

/-- `RRA [m]` (R245): rotated right to ACC, no flag. -/
def execRraM (m : DAddr) (s : State) : Host.Outcome State Fault Refusal :=
  .next (readToAcc (fun v => unflagged (rotateRight v)) m s)

/-- `RR [m]` (R246): rotated right in place, no flag. -/
def execRrM (m : DAddr) (s : State) : Host.Outcome State Fault Refusal :=
  .next (readModifyWrite (fun v => unflagged (rotateRight v)) m s)

/-- `RRCA [m]` (R247): rotated right through C to ACC. -/
def execRrcaM (m : DAddr) (s : State) : Host.Outcome State Fault Refusal :=
  .next (readToAcc (fun v => rotateRightCarry v s.status.c) m s)

/-- `RRC [m]` (R248): rotated right through C in place. -/
def execRrcM (m : DAddr) (s : State) : Host.Outcome State Fault Refusal :=
  .next (readModifyWrite (fun v => rotateRightCarry v s.status.c) m s)

/-- `RLA [m]` (R249): rotated left to ACC, no flag. -/
def execRlaM (m : DAddr) (s : State) : Host.Outcome State Fault Refusal :=
  .next (readToAcc (fun v => unflagged (rotateLeft v)) m s)

/-- `RL [m]` (R250): rotated left in place, no flag. -/
def execRlM (m : DAddr) (s : State) : Host.Outcome State Fault Refusal :=
  .next (readModifyWrite (fun v => unflagged (rotateLeft v)) m s)

/-- `RLCA [m]` (R251): rotated left through C to ACC. -/
def execRlcaM (m : DAddr) (s : State) : Host.Outcome State Fault Refusal :=
  .next (readToAcc (fun v => rotateLeftCarry v s.status.c) m s)

/-- `RLC [m]` (R252): rotated left through C in place. -/
def execRlcM (m : DAddr) (s : State) : Host.Outcome State Fault Refusal :=
  .next (readModifyWrite (fun v => rotateLeftCarry v s.status.c) m s)

end Sys2Proof.Machine
end

