-- ==== Sys2Proof/Machine/Logic.lean ====
section
/-! DEFINITION. The logic instructions (41_logic.md). -/

namespace Sys2Proof.Machine

/-- `AND A,[m]` (R221): bitwise and to ACC, Z only. -/
def execAndAM (m : DAddr) (s : State) : Host.Outcome State Fault Refusal :=
  .next (readToAcc (fun v => zeroFlagged (s.acc &&& v)) m s)

/-- `OR A,[m]` (R222): bitwise or to ACC, Z only. -/
def execOrAM (m : DAddr) (s : State) : Host.Outcome State Fault Refusal :=
  .next (readToAcc (fun v => zeroFlagged (s.acc ||| v)) m s)

/-- `XOR A,[m]` (R223): bitwise exclusive or to ACC, Z only. -/
def execXorAM (m : DAddr) (s : State) : Host.Outcome State Fault Refusal :=
  .next (readToAcc (fun v => zeroFlagged (s.acc ^^^ v)) m s)

/-- `CPLA [m]` (R231): the complement of [m] to ACC, Z only. -/
def execCplaM (m : DAddr) (s : State) : Host.Outcome State Fault Refusal :=
  .next (readToAcc (fun v => zeroFlagged (~~~v)) m s)

/-- `ANDM A,[m]` (R224): bitwise and to [m], Z only. -/
def execAndmAM (m : DAddr) (s : State) : Host.Outcome State Fault Refusal :=
  .next (readModifyWrite (fun v => zeroFlagged (s.acc &&& v)) m s)

/-- `ORM A,[m]` (R225): bitwise or to [m], Z only. -/
def execOrmAM (m : DAddr) (s : State) : Host.Outcome State Fault Refusal :=
  .next (readModifyWrite (fun v => zeroFlagged (s.acc ||| v)) m s)

/-- `XORM A,[m]` (R226): bitwise exclusive or to [m], Z only. -/
def execXormAM (m : DAddr) (s : State) : Host.Outcome State Fault Refusal :=
  .next (readModifyWrite (fun v => zeroFlagged (s.acc ^^^ v)) m s)

/-- `CPL [m]` (R230): the complement of [m] in place, Z only. -/
def execCplM (m : DAddr) (s : State) : Host.Outcome State Fault Refusal :=
  .next (readModifyWrite (fun v => zeroFlagged (~~~v)) m s)

/-- `AND A,x` (R227): bitwise and with an immediate. -/
def execAndAX (x : Byte) (s : State) : Host.Outcome State Fault Refusal :=
  .next (immediateToAcc (zeroFlagged (s.acc &&& x)) s)

/-- `OR A,x` (R228): bitwise or with an immediate. -/
def execOrAX (x : Byte) (s : State) : Host.Outcome State Fault Refusal :=
  .next (immediateToAcc (zeroFlagged (s.acc ||| x)) s)

/-- `XOR A,x` (R229): bitwise exclusive or with an immediate. -/
def execXorAX (x : Byte) (s : State) : Host.Outcome State Fault Refusal :=
  .next (immediateToAcc (zeroFlagged (s.acc ^^^ x)) s)

end Sys2Proof.Machine
end

