-- ==== Sys2Proof/Machine/Misc.lean ====
section
/-! DEFINITION. The miscellaneous instructions (46_misc.md). -/

namespace Sys2Proof.Machine

/-- One of the pair CLR WDT1, CLR WDT2 (R299, R300, C8): it clears unless it was itself the last of the two; under the
one-instruction option its effect is open (U10); with the WDT disabled it does nothing (D25). -/
def clearWdtPair (which : WdtLast) (s : State) : State :=
  if !s.cfg.opt.wdtEnabled then s
  else if s.cfg.opt.twoClears then
    let t := if s.wdt.last = which then s else clearWdt s
    t.withWdt { t.wdt with last := which }
  else clearWdtOtherMethod s

/-- `NOP` (R295): nothing but the advance of PC. -/
def execNop (s : State) : Host.Outcome State Fault Refusal :=
  .next (s.charge 1)

/-- `CLR [m]` (R296): 00H to [m], which is not read. -/
def execClrM (m : DAddr) (s : State) : Host.Outcome State Fault Refusal :=
  .next (writeOnly (unflagged 0x00#8) m s)

/-- `SET [m]` (R297): FFH to [m], which is not read. -/
def execSetM (m : DAddr) (s : State) : Host.Outcome State Fault Refusal :=
  .next (writeOnly (unflagged 0xFF#8) m s)

/-- `CLR WDT` (R298): WDT, TO and PDF cleared; nothing with the WDT disabled (D25); open under the two-instruction option (U10). -/
def execClrWdt (s : State) : Host.Outcome State Fault Refusal :=
  .next ((if !s.cfg.opt.wdtEnabled then s
    else if s.cfg.opt.twoClears then clearWdtOtherMethod s else clearWdt s).charge 1)

/-- `CLR WDT1` (R299): the first of the pair of clear instructions. -/
def execClrWdt1 (s : State) : Host.Outcome State Fault Refusal :=
  .next ((clearWdtPair .first s).charge 1)

/-- `CLR WDT2` (R300): the second of the pair of clear instructions. -/
def execClrWdt2 (s : State) : Host.Outcome State Fault Refusal :=
  .next ((clearWdtPair .second s).charge 1)

/-- `SWAP [m]` (R301): the nibbles of [m] exchanged in place. -/
def execSwapM (m : DAddr) (s : State) : Host.Outcome State Fault Refusal :=
  .next (readModifyWrite (fun v => unflagged (swapNibbles v)) m s)

/-- `SWAPA [m]` (R302): the nibbles of [m] exchanged, to ACC. -/
def execSwapaM (m : DAddr) (s : State) : Host.Outcome State Fault Refusal :=
  .next (readToAcc (fun v => unflagged (swapNibbles v)) m s)

/-- `HALT` (R303): TO cleared, PDF set, WDT cleared, the core halted; PC stays at the next instruction. -/
def execHalt (s : State) : Host.Outcome State Fault Refusal :=
  .next ((((restartWdt s).withStatus { s.status with timeOut := false, pdf := true }).withMode .halted).charge 1)

end Sys2Proof.Machine
end

