-- ==== Sys2Proof/Machine/MoveBit.lean ====
section
/-! DEFINITION. The move and bit instructions (43_move_bit.md). -/

namespace Sys2Proof.Machine

/-- `MOV A,[m]` (R261): [m] to ACC, no flag. -/
def execMovAM (m : DAddr) (s : State) : Host.Outcome State Fault Refusal :=
  .next (readToAcc unflagged m s)

/-- `MOV [m],A` (R262): ACC to [m], which is not read. -/
def execMovMA (m : DAddr) (s : State) : Host.Outcome State Fault Refusal :=
  .next (writeOnly (unflagged s.acc) m s)

/-- `MOV A,x` (R263): an immediate to ACC. -/
def execMovAX (x : Byte) (s : State) : Host.Outcome State Fault Refusal :=
  .next (immediateToAcc (unflagged x) s)

/-- `CLR [m].i` (R264): bit i of [m] cleared, the whole byte read and written. -/
def execClrMi (m : DAddr) (i : BitNo) (s : State) : Host.Outcome State Fault Refusal :=
  .next (readModifyWrite (fun v => unflagged (putBit v i false)) m s)

/-- `SET [m].i` (R265): bit i of [m] set, the whole byte read and written. -/
def execSetMi (m : DAddr) (i : BitNo) (s : State) : Host.Outcome State Fault Refusal :=
  .next (readModifyWrite (fun v => unflagged (putBit v i true)) m s)

end Sys2Proof.Machine
end

