-- ==== Sys2Proof/Machine/Table.lean ====
section
/-! DEFINITION. The table read instructions (45_table.md). -/

namespace Sys2Proof.Machine

/-- A table read from a program address (R290, R291): the low byte to `[m]`, the high part to TBLH. -/
def tableRead (a : PAddr) (m : DAddr) (s : State) : State :=
  let w := pmRead s a
  ((memWrite s m (w.extractLsb' 0 8)).withTblh (w.extractLsb' 8 7)).charge 2

/-- `TABRDC [m]` (R292): the table word at TBLP in the page of PC (D8). -/
def execTabrdcM (m : DAddr) (s : State) : Host.Outcome State Fault Refusal :=
  .next (tableRead (s.pc.extractLsb' 8 3 ++ s.tblp) m s)

/-- `TABRDL [m]` (R293): the table word at TBLP in the last page. -/
def execTabrdlM (m : DAddr) (s : State) : Host.Outcome State Fault Refusal :=
  .next (tableRead (0b111#3 ++ s.tblp) m s)

end Sys2Proof.Machine
end

