-- ==== Sys2Proof/Machine/Step.lean ====
section
/-! DEFINITION. One step of the machine (R14, D19): an idle interval of a halted core, or an interrupt entry, or one
instruction; then the agents' part. -/

namespace Sys2Proof.Machine

/-- One step (R14). -/
def step (s : State) : Host.Outcome State Fault Refusal :=
  match s.mode with
  | .halted => .next (idleStep s)
  | .running =>
    match acceptable s with
    | some k => .next (interruptStep k s)
    | none =>
      match decodeWith s.cfg.enc (fetchWord s) with
      | .error _ => .refused (.unassignedWord (fetchWord s))
      | .ok i =>
        match exec i (afterFetch s) with
        | .next t => finishInstruction s t
        | .fault f => .fault f
        | .refused r => .refused r

/-- The state with the instruction whose bits are `w` (those from `nbits` up being 0) as the program word at PC, where the
next step fetches. -/
def State.withFetchWord (s : State) (nbits w : Nat) : State :=
  s.withProgram (Memory.write s.program s.pc.toNat (BitVec.ofNat 15 (w % 2 ^ nbits)))

end Sys2Proof.Machine
end

