-- ==== Sys2Proof/Safety.lean ====
section
/-! DEFINITION. The terms of the claims: the invariant of the machine's states between two steps, what an instruction's
result and frame are, and what adding, subtracting and rotating mean, each said without the machine's own functions for
it. -/

namespace Sys2Proof.Machine

/-- What holds of the state between two core steps and every step keeps. -/
structure State.Inv (s : State) : Prop where
  /-- The stack has four levels (R37, R38). -/
  stackDepth : s.stack.length ≤ 4
  /-- RAM is in canonical form in the 7-bit address space (R35). -/
  ramForm : Memory.wf 128 s.ram = true
  /-- RAM holds nothing below GPR_BASE (R36, R127). -/
  ramBase : ∀ p ∈ s.ram, s.cfg.gprBase.toNat ≤ p.1
  /-- Program memory is in canonical form, 2048 words (R34). -/
  programForm : Memory.wf 2048 s.program = true
  /-- The EEPROM's cells are in canonical form, 128 bytes (R77). -/
  cellsForm : Memory.wf 128 s.eeprom.cells = true
  /-- The agents have run every cycle charged (D19). -/
  cyclesRun : s.cycles = 0
  /-- A halted core has PDF = 1 and TO = 0 (R391). -/
  haltedFlags : s.mode = .halted → s.status.pdf = true ∧ s.status.timeOut = false
  /-- With the watchdog disabled TO is never 1 (D25). -/
  noTimeOut : s.cfg.opt.wdtEnabled = false → s.status.timeOut = false
  /-- Timer 0 has a pulse under measurement only while on and in pulse width mode (R349). -/
  pulse0 : s.tmr0.pulse ≠ .idle → s.tmr0.on = true ∧ s.tmr0.mode = modePulseWidth
  /-- Timer 1 has a pulse under measurement only while on and in pulse width mode (R354). -/
  pulse1 : s.tmr1.pulse ≠ .idle → s.tmr1.on = true ∧ s.tmr1.mode = modePulseWidth
  /-- Timer 0 has an event not yet seen only while on and in event count mode (R347, R436). -/
  event0 : s.tmr0.event = true → s.tmr0.on = true ∧ s.tmr0.mode = modeEventCount
  /-- Timer 1 has an event not yet seen only while on and in event count mode (R354, R436). -/
  event1 : s.tmr1.event = true → s.tmr1.on = true ∧ s.tmr1.mode = modeEventCount

/-- A step never stops with a machine fault: there is none (R310). -/
def NeverFaults (s : State) : Prop := ∀ f, step s ≠ .fault f

/-! ## What an instruction leaves -/

/-- The state once the operand `[m]` has been read: as before, but for Timer 1's low-byte buffer when `[m]` is TMR1H
(R125). -/
def afterOperand (s : State) (m : DAddr) : State :=
  s.withTmr1 (if target s m = .reg .tmr1h then { s.tmr1 with buffer := s.tmr1.counter.extractLsb' 0 8 } else s.tmr1)

/-- `t` is `s` with `r` in ACC and `f` in STATUS after `n` cycles, `[m]` having been read: no other register, no flag
and no byte of RAM differs. -/
structure AccOutcome (s : State) (m : DAddr) (r : Byte) (f : Status) (n : Nat) (t : State) : Prop where
  acc : t.acc = r
  status : t.status = f
  cycles : t.cycles = s.cycles + n
  buffer : t.tmr1 = (afterOperand s m).tmr1
  ram : ∀ a, Memory.read t.ram a = Memory.read s.ram a
  rest : t = (((s.withAcc t.acc).withStatus t.status).withCycles t.cycles).withTmr1 t.tmr1

/-- `t` differs from `s` only in what a write of register `r` may change (R126; R43 to R69): the register's own fields, of
the status register OV, Z, AC and C, of a timer's control register not its counter and preload (R343, D26), and of a
timer that is not started by it not its prescaler's phase (log 40), a measurement or an unseen event being at most dropped
(log 48). -/
def RegisterFrame (s : State) (r : Sfr) (t : State) : Prop :=
  match r with
  | .iar => t = s
  | .mp => t = s.withMp t.mp
  | .acc => t = s.withAcc t.acc
  | .pcl => t = (s.withPc t.pc).withCycles (s.cycles + 1) ∧ t.pc.extractLsb' 8 3 = s.pc.extractLsb' 8 3
  | .tblp => t = s.withTblp t.tblp
  | .tblh => t = s
  | .wdts => t = s.withWdts t.wdts
  | .status => t = s.withStatus { t.status with timeOut := s.status.timeOut, pdf := s.status.pdf }
  | .intc0 => t = s.withIntc { t.intc with eci := s.intc.eci, cf := s.intc.cf }
  | .intc1 => t = s.withIntc { s.intc with eci := t.intc.eci, cf := t.intc.cf }
  | .tmr0 => t = s.withTmr0 { s.tmr0 with counter := t.tmr0.counter, preload := t.tmr0.preload }
  | .tmr0c => t = s.withTmr0 { t.tmr0 with counter := s.tmr0.counter, preload := s.tmr0.preload }
      ∧ (s.tmr0.on = true ∨ t.tmr0.on = false → t.tmr0.prescaler = s.tmr0.prescaler)
      ∧ (t.tmr0.pulse = s.tmr0.pulse ∨ t.tmr0.pulse = .idle) ∧ (t.tmr0.event = s.tmr0.event ∨ t.tmr0.event = false)
  | .tmr1h => t = s.withTmr1 { s.tmr1 with counter := t.tmr1.counter, preload := t.tmr1.preload }
  | .tmr1l => t = s.withTmr1 { s.tmr1 with buffer := t.tmr1.buffer }
  | .tmr1c => t = s.withTmr1 { t.tmr1 with counter := s.tmr1.counter, preload := s.tmr1.preload, buffer := s.tmr1.buffer }
      ∧ (t.tmr1.pulse = s.tmr1.pulse ∨ t.tmr1.pulse = .idle) ∧ (t.tmr1.event = s.tmr1.event ∨ t.tmr1.event = false)
  | .pa => t = s.withPorts { s.ports with pa := t.ports.pa }
  | .pac => t = s.withPorts { s.ports with pac := t.ports.pac }
  | .pb => t = s.withPorts { s.ports with pb := t.ports.pb }
  | .pbc => t = s.withPorts { s.ports with pbc := t.ports.pbc }
  | .misc => t = s.withAnalog { s.analog with misc := t.analog.misc }
  | .opac1 => t = s.withAnalog { s.analog with opac1 := t.analog.opac1 }
  | .opac2 => t = s.withAnalog { s.analog with opac2 := t.analog.opac2 }
  | .opac3 => t = s.withAnalog { s.analog with opac3 := t.analog.opac3 }
  | .cmpc => t = s.withAnalog { s.analog with cmpc := t.analog.cmpc }

/-- `t` is `s` with the byte `v` stored at `[m]` (R126): in RAM, that byte and no other; at an undefined address, nothing;
in a register, what a write of it does (statement RegisterReadBack and those of the timers and ports). -/
def Stored (s : State) (m : DAddr) (v : Byte) (t : State) : Prop :=
  match target s m with
  | .ram =>
    Memory.read t.ram (effAddr s m).toNat = v
      ∧ (∀ a, a ≠ (effAddr s m).toNat → Memory.read t.ram a = Memory.read s.ram a)
      ∧ t = s.withRam t.ram
  | .undefined => t = s
  | .reg r => t = regWrite s v r ∧ ∀ a, Memory.read t.ram a = Memory.read s.ram a

/-- `t` is `s` with `v` stored at `[m]` and nothing else changed, after one cycle and those the write itself costs. -/
def StoreOutcome (s : State) (m : DAddr) (v : Byte) (t : State) : Prop :=
  ∃ u, Stored s m v u ∧ t = u.withCycles (u.cycles + 1)

/-- As `StoreOutcome`, with the flags `f` in STATUS besides. -/
def FlagStoreOutcome (s : State) (m : DAddr) (v : Byte) (f : Status) (t : State) : Prop :=
  ∃ u, Stored s m v u ∧ t = (u.withStatus f).withCycles (u.cycles + 1)

/-! ## What an operation computes -/

/-- `r` and `g` are the sum of `a`, `b` and the carry, and its flags (R200, R202): C unsigned overflow, AC the carry out
of the low nibble, OV signed overflow. `f` are the flags before. -/
structure SumSpec (a b : Byte) (cin : Bool) (r : Byte) (f g : Status) : Prop where
  value : r.toNat = (a.toNat + b.toNat + cin.toNat) % 256
  carry : g.c = true ↔ 256 ≤ a.toNat + b.toNat + cin.toNat
  half : g.ac = true ↔ 16 ≤ a.toNat % 16 + b.toNat % 16 + cin.toNat
  overflow : g.ov = true ↔ (a.toInt + b.toInt + cin.toNat < -128 ∨ 127 < a.toInt + b.toInt + cin.toNat)
  zero : g.z = true ↔ r.toNat = 0
  pdf : g.pdf = f.pdf
  timeOut : g.timeOut = f.timeOut

/-- `r` and `g` are the difference `a - b - borrow` and its flags (R201, R202): C no borrow, AC no borrow of the low
nibble, OV signed overflow. -/
structure DiffSpec (a b : Byte) (borrow : Bool) (r : Byte) (f g : Status) : Prop where
  value : r.toNat = (a.toNat + 256 - b.toNat - borrow.toNat) % 256
  carry : g.c = true ↔ b.toNat + borrow.toNat ≤ a.toNat
  half : g.ac = true ↔ b.toNat % 16 + borrow.toNat ≤ a.toNat % 16
  overflow : g.ov = true ↔ (a.toInt - b.toInt - borrow.toNat < -128 ∨ 127 < a.toInt - b.toInt - borrow.toNat)
  zero : g.z = true ↔ r.toNat = 0
  pdf : g.pdf = f.pdf
  timeOut : g.timeOut = f.timeOut

/-- `r` is, bit for bit, `op` of `a` and `b`; `g` is `f` with Z telling whether `r` is zero (R220). -/
structure LogicSpec (op : Bool → Bool → Bool) (a b r : Byte) (f g : Status) : Prop where
  bits : ∀ i, i < 8 → r.getLsbD i = op (a.getLsbD i) (b.getLsbD i)
  zero : g.z = true ↔ r.toNat = 0
  rest : g = { f with z := g.z }

/-- `r` is the number `n` modulo 256; `g` is `f` with Z telling whether `r` is zero (R240). -/
structure CountSpec (n : Nat) (r : Byte) (f g : Status) : Prop where
  value : r.toNat = n % 256
  zero : g.z = true ↔ n % 256 = 0
  rest : g = { f with z := g.z }

/-- `r` is `v` moved one bit to the right, `b` entering bit 7 (R245, R247). -/
def RotatedRight (v : Byte) (b : Bool) (r : Byte) : Prop :=
  r.getLsbD 7 = b ∧ ∀ i, i < 7 → r.getLsbD i = v.getLsbD (i + 1)

/-- `r` is `v` moved one bit to the left, `b` entering bit 0 (R249, R251). -/
def RotatedLeft (v : Byte) (b : Bool) (r : Byte) : Prop :=
  r.getLsbD 0 = b ∧ ∀ i, i < 7 → r.getLsbD (i + 1) = v.getLsbD i

/-- The nibbles of `r` are those of `v` exchanged (R301). -/
def Swapped (v r : Byte) : Prop := r.toNat = v.toNat % 16 * 16 + v.toNat / 16

/-- `r` is `v` but for bit `i`, which is `b` (R264, R265). -/
def WithBit (v : Byte) (i : BitNo) (b : Bool) (r : Byte) : Prop :=
  r.getLsbD i.toNat = b ∧ ∀ j, j < 8 → j ≠ i.toNat → r.getLsbD j = v.getLsbD j

/-- A byte of two decimal digits. -/
def isBcd (v : Byte) : Prop := v.toNat % 16 ≤ 9 ∧ v.toNat / 16 ≤ 9

/-- The number two decimal digits stand for. -/
def bcdNumber (v : Byte) : Nat := v.toNat / 16 * 10 + v.toNat % 16

/-- The priority number of a source, 1 the highest (R320). -/
def IrqSource.priority : IrqSource → Nat
  | .external => 1
  | .timer0 => 2
  | .timer1 => 3
  | .comparator => 4

/-- The registers to which R79 gives the same stated value in all four columns of full resets, POR, WDTn, RESn and RESh
(PB and PBC: D14, log 20). -/
structure ControlReset (t : State) : Prop where
  core : t.pc = 0x000#11 ∧ t.stack = [] ∧ t.mode = .running
  interrupts : t.intc = { emi := false, eei := false, et0i := false, et1i := false, eif := false, t0f := false,
                          t1f := false, eci := false, cf := false }
  watchdog : t.wdts = 0x07#8 ∧ t.wdt.count = 0#8 ∧ t.wdt.prescaler = 0#7
  timer0 : t.tmr0.mode = 0b00#2 ∧ t.tmr0.on = false ∧ t.tmr0.edge = false ∧ t.tmr0.psc = 0b100#3
    ∧ t.tmr0.prescaler = 0#7
  timer1 : t.tmr1.mode = 0b00#2 ∧ t.tmr1.on = false ∧ t.tmr1.edge = true
  ports : t.ports.pa = 0xFF#8 ∧ t.ports.pac = 0xFF#8 ∧ t.ports.pb = 0xFF#8 ∧ t.ports.pbc = 0xFF#8
  analog : t.analog.misc = 0x80#8 ∧ t.analog.opac1 = 0x00#8 ∧ t.analog.opac2 = 0x00#8 ∧ t.analog.opac3 = 0x00#8
    ∧ t.analog.cmpc = 0x00#8

/-- `t` is `s` after one of the three full resets other than power-on (R79, columns WDTn, RESn, RESh): the control
registers at their values, and what is kept (RAM: D12, log 18). -/
structure FullReset (s t : State) : Prop where
  control : ControlReset t
  kept : t.acc = s.acc ∧ t.mp = s.mp ∧ t.tblp = s.tblp ∧ t.tblh = s.tblh ∧ t.ram = s.ram ∧ t.program = s.program
    ∧ t.cfg = s.cfg ∧ t.eeprom = s.eeprom
  flags : t.status.ov = s.status.ov ∧ t.status.z = s.status.z ∧ t.status.ac = s.status.ac ∧ t.status.c = s.status.c

/-! ## The agents -/

/-- The edge detectors and the EEPROM have seen the present levels: no transition is under way. -/
def Settled (s : State) : Prop :=
  s.seen = { pa := paLevel s, pb1 := getBit (pbLevel s) 1, cmp := s.pins.cmpOut, cnt := s.pins.cntSrc }
    ∧ s.eeprom.seenSda = sdaLine s ∧ s.eeprom.seenScl = sclLine s

/-- One count of Timer 0 (R343), of the timer and of T0F: the next count, or at FFH the preload and a request. -/
def Counted0 (before after : Timer0) (requestBefore requestAfter : Bool) : Prop :=
  (before.counter ≠ 0xFF#8 → after = { before with counter := before.counter + 1 } ∧ requestAfter = requestBefore)
  ∧ (before.counter = 0xFF#8 → after = { before with counter := before.preload } ∧ requestAfter = true)

/-- One count of Timer 1 (R343), of the timer and of T1F. -/
def Counted1 (before after : Timer1) (requestBefore requestAfter : Bool) : Prop :=
  (before.counter ≠ 0xFFFF#16 → after = { before with counter := before.counter + 1 } ∧ requestAfter = requestBefore)
  ∧ (before.counter = 0xFFFF#16 → after = { before with counter := before.preload } ∧ requestAfter = true)

/-- How many counts of Timer 0 fall into the next `n` instruction cycles in timer mode (R342): the multiples of 2^PSC among
the next 4n values of the prescaler. -/
def timer0Counts (s : State) (n : Nat) : Nat :=
  if s.tmr0.on = true ∧ s.tmr0.mode = modeTimer then
    (s.tmr0.prescaler.toNat + 4 * n) / 2 ^ s.tmr0.psc.toNat - s.tmr0.prescaler.toNat / 2 ^ s.tmr0.psc.toNat
  else 0

/-- How many counts of Timer 1 fall into the next `n` instruction cycles in timer mode (R351). -/
def timer1Counts (s : State) (n : Nat) : Nat := if s.tmr1.on = true ∧ s.tmr1.mode = modeTimer then n else 0

/-- How many clocks of the watchdog fall into the next `n` instruction cycles (R361, R362). -/
def watchdogClocks (s : State) (n : Nat) : Nat :=
  if s.cfg.opt.wdtEnabled = true ∧ s.cfg.opt.wdtClock = .systemQuarter then n else 0

/-- The EEPROM sees a sequence of line levels, SDA then SCL in each pair. -/
def Eeprom.follow (d writeTime : Nat) (e : Eeprom) (levels : List (Bool × Bool)) : Eeprom :=
  levels.foldl (fun e l => e.observe d writeTime l.1 l.2) e

/-- START from both lines high (R402). -/
def startLevels : List (Bool × Bool) := [(false, true), (false, false)]

/-- STOP from SCL low (R402). -/
def stopLevels : List (Bool × Bool) := [(false, false), (false, true), (true, true)]

/-- One bit: SDA is set while SCL is low, then SCL goes high and low (R401). -/
def bitLevels (b : Bool) : List (Bool × Bool) := [(b, false), (b, true), (b, false)]

/-- The eight bits of a byte, the highest first (R403, R405). -/
def byteLevels (v : Byte) : List (Bool × Bool) :=
  bitLevels (v.getLsbD 7) ++ bitLevels (v.getLsbD 6) ++ bitLevels (v.getLsbD 5) ++ bitLevels (v.getLsbD 4)
    ++ bitLevels (v.getLsbD 3) ++ bitLevels (v.getLsbD 2) ++ bitLevels (v.getLsbD 1) ++ bitLevels (v.getLsbD 0)

end Sys2Proof.Machine
end

