-- ==== Sys2Proof/WellFormed.lean ====
section
/-! DEFINITION. Well-formedness. An instruction is well-formed by its operands' widths alone (R164: every value of every
field is an operand), so the checks are those the spec puts on a configuration (R40, R52, R53, R410 and
92_eei_decisions.md section 2). -/

namespace Sys2Proof

/-- Every special function register, in the order of R52. -/
def Sfr.all : List Sfr :=
  [.iar, .mp, .acc, .pcl, .tblp, .tblh, .wdts, .status, .intc0, .intc1, .tmr0, .tmr0c, .tmr1h, .tmr1l, .tmr1c,
   .pa, .pac, .pb, .pbc, .misc, .opac1, .opac2, .opac3, .cmpc]

/-- No value stands twice in the list. -/
def allDistinct {α : Type} [BEq α] : List α → Bool
  | [] => true
  | a :: as => !as.contains a && allDistinct as

/-- R52: the registers have distinct addresses below GPR_BASE, STATUS is at 0AH, a register is at 00H, and every
register has its address. -/
def Config.sfrMapOk (c : Config) : Bool :=
  allDistinct (c.sfrMap.map (·.1)) && allDistinct (c.sfrMap.map (·.2))
    && Sfr.all.all (fun r => (c.sfrMap.map (·.2)).contains r)
    && c.sfrMap.all (fun p => p.1 < c.gprBase)
    && c.sfrMap.lookup 0x0A#7 == some .status
    && (c.sfrMap.lookup 0x00#7).isSome

/-- STATUS_POS is a permutation of bits 3..0 (92_eei_decisions.md section 2). -/
def Config.statusPosOk (c : Config) : Bool :=
  let p := c.statusPos
  allDistinct [p.ov, p.z, p.ac, p.c] && [p.ov, p.z, p.ac, p.c].all (· < 4#3)

/-- INTC_POS is open only within the sets of R53. -/
def Config.intcPosOk (c : Config) : Bool :=
  let p := c.intcPos
  p.eei == 1#3 && allDistinct [p.et0i, p.et1i] && [p.et0i, p.et1i].all (fun b => b == 2#3 || b == 3#3)
    && allDistinct [p.eif, p.t0f, p.t1f] && [p.eif, p.t0f, p.t1f].all (fun b => 4#3 ≤ b && b ≤ 6#3)
    && allDistinct [p.eci, p.cf] && [p.eci, p.cf].all (fun b => b == 0#3 || b == 4#3)

/-- INTES is bits 7 and 6 of MISC in some order; the other fields are distinct bits of MISC[5:0] (R53, R65). -/
def Config.miscPosOk (c : Config) : Bool :=
  let p := c.miscPos
  allDistinct [p.intes1, p.intes0] && [p.intes1, p.intes0].all (6#3 ≤ ·)
    && allDistinct [p.cmpes, p.couten, p.coutsel, p.flag] && [p.cmpes, p.couten, p.coutsel, p.flag].all (· < 6#3)

/-- The enable bit and the output flag of each analog control register are different bits (R66 to R69). -/
def Config.analogPosOk (c : Config) : Bool :=
  [c.opac1Pos, c.opac2Pos, c.opac3Pos, c.cmpcPos].all (fun p => p.enable != p.flag)

/-- T_WS is a positive duration (92_eei_decisions.md section 2). -/
def Config.writeTimeOk (c : Config) : Bool := 0 < c.writeTime

/-- ENC is a function on words, and each of the 15495 instructions (7 + 43 * 128 + 7 * 256 + 2 * 2048 + 4 * 1024) has a
word (R160, R163; 92_eei_decisions.md section 2). -/
def Config.encOk (c : Config) : Bool :=
  match c.enc with
  | .assigned => true
  | .words table => allDistinct (table.map (·.1)) && (table.map (·.2)).eraseDups.length == 15495

/-- A configuration the spec admits. -/
def Config.wf (c : Config) : Bool :=
  c.sfrMapOk && c.statusPosOk && c.intcPosOk && c.miscPosOk && c.analogPosOk && c.writeTimeOk && c.encOk

end Sys2Proof
end

