-- ==== Sys2Proof/Certificates/Slice0/Obligations.lean ====
section
/-! DEFINITION. The statements for the provers. An instruction runs in a state whose PC is already the next address
(R13), so `s.pc` is a + 1 for an instruction at a. RAM is in canonical form (`Memory.wf`) where a statement reads back a
byte it stored: every step keeps that (StepKeepsInvariant). -/

open Sys2Proof Sys2Proof.Machine

/-! ## Encoding -/

/-- Decoding the encoding of any instruction gives it back (the assigned encoding, R161 to R169, D3, log 1). -/
def Obligations.DecodeEncodeRoundTrip : Prop := ∀ i : Instr, decode (encode i) = .ok i

/-- A word that decodes is the encoding of what it decodes to: no bit of a word is dropped (R169, D3, log 1). -/
def Obligations.EncodeDecodeRoundTrip : Prop := ∀ (w : PWord) (i : Instr), decode w = .ok i → encode i = w

/-- Under the assigned encoding the words that are no instruction are exactly the five ranges of R170; under another ENC they
are the words its table does not list, and each listed word is its instruction (R160); a step that fetches a word that is
no instruction is refused (D5, U1, log 33). -/
def Obligations.UnassignedWordsRefused : Prop :=
  (∀ w : PWord, (∃ e, decode w = .error e) ↔
    (0x0007 ≤ w.toNat ∧ w.toNat ≤ 0x007F) ∨ (0x0780 ≤ w.toNat ∧ w.toNat ≤ 0x08FF)
      ∨ (0x1C00 ≤ w.toNat ∧ w.toNat ≤ 0x1CFF) ∨ (0x1E00 ≤ w.toNat ∧ w.toNat ≤ 0x1E7F) ∨ 0x4000 ≤ w.toNat)
  ∧ (∀ s : State, s.mode = .running → acceptable s = none → (∃ e, decodeWith s.cfg.enc (fetchWord s) = .error e) →
    step s = .refused (.unassignedWord (fetchWord s)))
  ∧ (∀ w : PWord, decodeWith .assigned w = decode w)
  ∧ ∀ table : List (PWord × Instr), (table.map (·.1)).Nodup → ∀ (w : PWord) (i : Instr),
    decodeWith (.words table) w = .ok i ↔ (w, i) ∈ table

/-- Words of the spec's examples, one of each family, decode to the instructions the spec names. -/
def Obligations.SampleWordsDecode : Prop :=
  decode 0x0340#15 = .ok (.addAM 0x40#7) ∧ decode 0x0640#15 = .ok (.andAM 0x40#7)
    ∧ decode 0x14C0#15 = .ok (.incM 0x40#7) ∧ decode 0x1940#15 = .ok (.rraM 0x40#7)
    ∧ decode 0x37C0#15 = .ok (.clrMi 0x40#7 7#3) ∧ decode 0x380A#15 = .ok (.snzMi 0x0A#7 0#3)
    ∧ decode 0x2923#15 = .ok (.jmpAddr 0x123#11) ∧ decode 0x095A#15 = .ok (.retAX 0x5A#8)
    ∧ decode 0x1D40#15 = .ok (.tabrdcM 0x40#7) ∧ decode 0x0002#15 = .ok .halt

/-! ## The step -/

/-- A running core that accepts no interrupt runs the instruction ENC reads at PC, with PC one further, and then the agents run;
but a change of the mode of a timer that is on refuses the step (R14, R356, log 39). -/
def Obligations.StepRunsDecodedInstruction : Prop :=
  ∀ (s t : State) (i : Instr), s.mode = .running → acceptable s = none → decodeWith s.cfg.enc (pmRead s s.pc) = .ok i →
    exec i (s.withPc (s.pc + 1#11)) = .next t →
      (timerModeClash s t = false → step s = .next (runAgents t))
      ∧ (timerModeClash s t = true → step s = .refused .timerModeChangedWhileOn)

/-- A write of other mode bits to TMR0C or TMR1C while the timer is on is refused (R356, U11, log 39). -/
def Obligations.TimerModeChangeRefused : Prop :=
  ∀ (s : State) (m : DAddr), s.mode = .running → acceptable s = none → decodeWith s.cfg.enc (fetchWord s) = .ok (.movMA m) →
    (target s m = .reg .tmr0c → s.tmr0.on = true → s.acc.extractLsb' 6 2 ≠ s.tmr0.mode →
      step s = .refused .timerModeChangedWhileOn)
    ∧ (target s m = .reg .tmr1c → s.tmr1.on = true → s.acc.extractLsb' 6 2 ≠ s.tmr1.mode →
      step s = .refused .timerModeChangedWhileOn)

/-- A halted core on which nothing happens keeps every register, RAM and port; only the EEPROM's write goes on and the
model's draw advances (R391, R410). -/
def Obligations.HaltedCoreWaits : Prop :=
  ∀ s : State, s.mode = .halted → s.cycles = 0 → s.script = [] → Settled s →
    step s = .next ((s.withEeprom { s.eeprom with busy := s.eeprom.busy - 1 }).withDraws (s.draws + 1))

/-! ## Interrupts -/

/-- Interrupt k is accepted exactly when EMI = 1, SP < 4, k is requested and enabled, and no source of higher priority
is; otherwise the next instruction executes (R325). -/
def Obligations.AcceptanceRule : Prop :=
  (∀ (s : State) (k : IrqSource), acceptable s = some k ↔
    s.intc.emi = true ∧ s.stack.length < 4 ∧ (s.intc.flag k = true ∧ s.intc.enable k = true)
      ∧ ∀ j : IrqSource, j.priority < k.priority → ¬(s.intc.flag j = true ∧ s.intc.enable j = true))
  ∧ (∀ (s : State) (k : IrqSource), s.mode = .running → acceptable s = some k → step s = .next (interruptStep k s))
  ∧ ∀ (s t : State) (i : Instr), s.mode = .running → acceptable s = none → decodeWith s.cfg.enc (fetchWord s) = .ok i →
    exec i (afterFetch s) = .next t → step s = finishInstruction s t

/-- The entry: PC is pushed, PC becomes the vector, EMI and the source's flag are cleared, and nothing else is saved or
changed; then the agents run. The cycles are a parameter (log 11). -/
def Obligations.InterruptEntry : Prop :=
  ∀ (s : State) (k : IrqSource), s.mode = .running → acceptable s = some k →
    ∃ t, step s = .next (runAgents t)
      ∧ t.stack = s.stack ++ [s.pc]
      ∧ (k = .external → t.pc = 0x004#11) ∧ (k = .timer0 → t.pc = 0x008#11)
      ∧ (k = .timer1 → t.pc = 0x00C#11) ∧ (k = .comparator → t.pc = 0x010#11)
      ∧ t.intc.emi = false ∧ t.intc.flag k = false
      ∧ (∀ j : IrqSource, j ≠ k → t.intc.flag j = s.intc.flag j)
      ∧ (∀ j : IrqSource, t.intc.enable j = s.intc.enable j)
      ∧ t = (((s.withStack t.stack).withPc t.pc).withIntc t.intc).withCycles (s.cycles + s.cfg.entryCycles)

/-- RETI undoes an entry but for the request flag, and sets EMI; RET undoes a CALL (R283, R329, R281, R285). -/
def Obligations.ReturnsUndoEntryAndCall : Prop :=
  (∀ (s : State) (k : IrqSource), s.stack.length < 4 →
    exec .reti (enterInterrupt k s)
      = .next ((s.withIntc { s.intc.setFlag false k with emi := true }).withCycles
          (s.cycles + s.cfg.entryCycles + 2)))
  ∧ ∀ (s : State) (addr : PAddr), s.stack.length < 4 →
    ∃ t, exec (.callAddr addr) s = .next t ∧ t.pc = addr ∧ exec .ret t = .next (s.withCycles (s.cycles + 4))

/-- With SP = 4 no interrupt is accepted; the request stays and is accepted at the boundary after a return; an entry
never overflows the stack (R330). -/
def Obligations.StackFullHoldsOff : Prop :=
  (∀ (s : State) (k : IrqSource), s.stack.length = 4 → s.intc.emi = true → s.intc.flag k = true →
    s.intc.enable k = true →
      acceptable s = none
      ∧ ∃ t j, exec .ret s = .next t ∧ t.intc = s.intc ∧ acceptable t = some j)
  ∧ ∀ (s : State) (k : IrqSource), acceptable s = some k → (enterInterrupt k s).stack.length = s.stack.length + 1
    ∧ (enterInterrupt k s).stack.length ≤ 4

/-! ## Data memory and registers -/

/-- RAM gives back the byte written and no other location differs; an undefined location reads 00H and ignores writes;
under the default map the undefined addresses are 02H to 04H and 1BH to 3FH (R36, R52, R127; the write: D20, log 26). -/
def Obligations.DataMemoryLocations : Prop :=
  (∀ (s : State) (m : DAddr) (v : Byte), target s m = .ram → Memory.wf 128 s.ram = true →
    memValue (memWrite s m v) m = v
    ∧ ∀ n : DAddr, target s n = .ram → effAddr s n ≠ effAddr s m → memValue (memWrite s m v) n = memValue s n)
  ∧ (∀ (s : State) (m : DAddr) (v : Byte), target s m = .undefined → memValue s m = 0x00#8 ∧ memWrite s m v = s)
  ∧ (∀ a : DAddr, locate defaultConfig a = .undefined ↔
      (0x02 ≤ a.toNat ∧ a.toNat ≤ 0x04) ∨ (0x1B ≤ a.toNat ∧ a.toNat ≤ 0x3F))
  ∧ ∀ a : DAddr, locate defaultConfig a = .ram ↔ 0x40 ≤ a.toNat

/-- What a register gives when read after a write of `v`: the byte for plain storage, bit 7 = 1 for MP, the implemented
bits of STATUS, INTC0, INTC1, TMR0C and TMR1C, while TO, PDF and TBLH are not written (R125, R126, R47 to R51, R54 to R60,
R62, R64); and a write of a register changes nothing but that register, so that starting a timer keeps its counter (R343).
The model's choices in it: IAR through IAR (D11, log 17), bits 7 to 3 of WDTS as storage (D13, log 19), the reads of MISC,
OPAC1 to OPAC3 and CMPC (D15, log 21), no reload at a timer's start (D26, log 32), a prescaler that a write to a timer
already on leaves (log 40), and when a measurement under way or an event not yet seen is dropped (log 48). -/
def Obligations.RegisterReadBack : Prop :=
  ∀ (s : State) (v : Byte), s.cfg.wf = true →
    (∀ r ∈ [Sfr.acc, .pcl, .tblp, .wdts, .pac, .pbc], regValue (regWrite s v r) r = v)
    ∧ regValue (regWrite s v .mp) .mp = (v ||| 0x80#8)
    ∧ (∀ r ∈ [Sfr.iar, .tblh], regWrite s v r = s)
    ∧ regValue s .iar = 0x00#8 ∧ (regValue s .tblh).getLsbD 7 = false
    ∧ (∀ p ∈ [s.cfg.statusPos.ov, s.cfg.statusPos.z, s.cfg.statusPos.ac, s.cfg.statusPos.c],
        (regValue (regWrite s v .status) .status).getLsbD p.toNat = v.getLsbD p.toNat)
    ∧ (regValue (regWrite s v .status) .status).getLsbD 5 = s.status.timeOut
    ∧ (regValue (regWrite s v .status) .status).getLsbD 4 = s.status.pdf
    ∧ (∀ i, i < 7 → (regValue (regWrite s v .intc0) .intc0).getLsbD i = v.getLsbD i)
    ∧ (∀ i ∈ [0, 4], (regValue (regWrite s v .intc1) .intc1).getLsbD i = v.getLsbD i)
    ∧ (∀ i ∈ [0, 1, 2, 3, 4, 6, 7], (regValue (regWrite s v .tmr0c) .tmr0c).getLsbD i = v.getLsbD i)
    ∧ (∀ i ∈ [3, 4, 6, 7], (regValue (regWrite s v .tmr1c) .tmr1c).getLsbD i = v.getLsbD i)
    ∧ (∀ i, i < 8 → i ≠ s.cfg.miscPos.flag.toNat →
        (regValue (regWrite s v .misc) .misc).getLsbD i = v.getLsbD i)
    ∧ (∀ i, i < 8 → i ≠ s.cfg.opac1Pos.flag.toNat →
        (regValue (regWrite s v .opac1) .opac1).getLsbD i = v.getLsbD i)
    ∧ (∀ i, i < 8 → i ≠ s.cfg.opac2Pos.flag.toNat →
        (regValue (regWrite s v .opac2) .opac2).getLsbD i = v.getLsbD i)
    ∧ (∀ i, i < 8 → i ≠ s.cfg.opac3Pos.flag.toNat →
        (regValue (regWrite s v .opac3) .opac3).getLsbD i = v.getLsbD i)
    ∧ (∀ i, i < 8 → i ≠ s.cfg.cmpcPos.flag.toNat →
        (regValue (regWrite s v .cmpc) .cmpc).getLsbD i = v.getLsbD i)
    ∧ ∀ r : Sfr, RegisterFrame s r (regWrite s v r)

/-- An access to IAR is an access to the location MP points to; when that is IAR itself it reads 00H and writes
nothing (R48, R124; the last: D11, log 17). -/
def Obligations.IndirectAddressing : Prop :=
  ∀ (s : State) (m : DAddr), locate s.cfg m = .reg .iar →
    (locate s.cfg s.mp ≠ .reg .iar →
      exec (.movAM m) s = exec (.movAM s.mp) s ∧ exec (.movMA m) s = exec (.movMA s.mp) s
      ∧ exec (.addmAM m) s = exec (.addmAM s.mp) s ∧ exec (.sdzM m) s = exec (.sdzM s.mp) s)
    ∧ (locate s.cfg s.mp = .reg .iar →
      exec (.movAM m) s = .next ((s.withAcc 0x00#8).withCycles (s.cycles + 1))
      ∧ exec (.movMA m) s = .next (s.withCycles (s.cycles + 1)))

/-- A write of TMR0 goes to the preload register, and to the counter of a timer that is off; the preload reaches the
counter of a running timer at its next overflow; a read of TMR0 gives the counter (R344, R345). That a write of TMR0 keeps
Timer 0's prescaler, of a running timer too, is the model's choice (R342 leaves it open; log 40). -/
def Obligations.Timer0DataRegister : Prop :=
  (∀ (s : State) (m : DAddr), target s m = .reg .tmr0 →
    exec (.movMA m) s = .next ((s.withTmr0 { s.tmr0 with
        preload := s.acc
        counter := if s.tmr0.on = true then s.tmr0.counter else s.acc }).withCycles (s.cycles + 1))
    ∧ exec (.movAM m) s = .next ((s.withAcc s.tmr0.counter).withCycles (s.cycles + 1)))
  ∧ ∀ s : State, s.tmr0.counter = 0xFF#8 → (countTimer0 s).tmr0.counter = s.tmr0.preload
    ∧ (countTimer0 s).tmr0.preload = s.tmr0.preload

/-- A write of TMR1L goes to the low-byte buffer alone; a write of TMR1H takes the buffer along to the preload register,
and to the counter of a timer that is off; a read of TMR1H gives the high byte and loads the buffer; a read of TMR1L
gives the buffer (R352, R353). -/
def Obligations.Timer1DataRegisters : Prop :=
  ∀ (s : State) (m : DAddr),
    (target s m = .reg .tmr1l →
      exec (.movMA m) s = .next ((s.withTmr1 { s.tmr1 with buffer := s.acc }).withCycles (s.cycles + 1))
      ∧ exec (.movAM m) s = .next ((s.withAcc s.tmr1.buffer).withCycles (s.cycles + 1)))
    ∧ (target s m = .reg .tmr1h →
      exec (.movMA m) s = .next ((s.withTmr1 { s.tmr1 with
          preload := s.acc ++ s.tmr1.buffer
          counter := if s.tmr1.on = true then s.tmr1.counter else s.acc ++ s.tmr1.buffer }).withCycles (s.cycles + 1))
      ∧ exec (.movAM m) s = .next (((s.withAcc (s.tmr1.counter.extractLsb' 8 8)).withTmr1 { s.tmr1 with
          buffer := s.tmr1.counter.extractLsb' 0 8 }).withCycles (s.cycles + 1)))

/-! ## Arithmetic -/

/-- ADD, ADC, SUB and SBC with `[m]` put the result in ACC, write OV, Z, AC and C, and change nothing else
(R204, R207, R210, R212; AC of a subtraction: D9, log 15). -/
def Obligations.ArithmeticToAcc : Prop :=
  ∀ (s : State) (m : DAddr),
    (∃ r f t, SumSpec s.acc (memValue s m) false r s.status f
      ∧ exec (.addAM m) s = .next t ∧ AccOutcome s m r f 1 t)
    ∧ (∃ r f t, SumSpec s.acc (memValue s m) s.status.c r s.status f
      ∧ exec (.adcAM m) s = .next t ∧ AccOutcome s m r f 1 t)
    ∧ (∃ r f t, DiffSpec s.acc (memValue s m) false r s.status f
      ∧ exec (.subAM m) s = .next t ∧ AccOutcome s m r f 1 t)
    ∧ ∃ r f t, DiffSpec s.acc (memValue s m) (!s.status.c) r s.status f
      ∧ exec (.sbcAM m) s = .next t ∧ AccOutcome s m r f 1 t

/-- ADDM, ADCM, SUBM and SBCM store the result at `[m]`, write OV, Z, AC and C, and change nothing else, for every `[m]`
but STATUS (R205, R208, R211, R213, R130; AC of a subtraction: D9, log 15). -/
def Obligations.ArithmeticToMemory : Prop :=
  ∀ (s : State) (m : DAddr), Memory.wf 128 s.ram = true → target s m ≠ .reg .status →
    (∃ r f t, SumSpec s.acc (memValue s m) false r s.status f
      ∧ exec (.addmAM m) s = .next t ∧ FlagStoreOutcome (afterOperand s m) m r f t)
    ∧ (∃ r f t, SumSpec s.acc (memValue s m) s.status.c r s.status f
      ∧ exec (.adcmAM m) s = .next t ∧ FlagStoreOutcome (afterOperand s m) m r f t)
    ∧ (∃ r f t, DiffSpec s.acc (memValue s m) false r s.status f
      ∧ exec (.submAM m) s = .next t ∧ FlagStoreOutcome (afterOperand s m) m r f t)
    ∧ ∃ r f t, DiffSpec s.acc (memValue s m) (!s.status.c) r s.status f
      ∧ exec (.sbcmAM m) s = .next t ∧ FlagStoreOutcome (afterOperand s m) m r f t

/-- The six instructions with an immediate byte write ACC and their flags, and nothing else (R206, R209, R227 to R229,
R263; AC of a subtraction: D9, log 15). -/
def Obligations.ImmediateOperations : Prop :=
  ∀ (s : State) (x : Byte),
    (∃ r f, SumSpec s.acc x false r s.status f
      ∧ exec (.addAX x) s = .next (((s.withAcc r).withStatus f).withCycles (s.cycles + 1)))
    ∧ (∃ r f, DiffSpec s.acc x false r s.status f
      ∧ exec (.subAX x) s = .next (((s.withAcc r).withStatus f).withCycles (s.cycles + 1)))
    ∧ (∃ r f, LogicSpec (fun a b => a && b) s.acc x r s.status f
      ∧ exec (.andAX x) s = .next (((s.withAcc r).withStatus f).withCycles (s.cycles + 1)))
    ∧ (∃ r f, LogicSpec (fun a b => a || b) s.acc x r s.status f
      ∧ exec (.orAX x) s = .next (((s.withAcc r).withStatus f).withCycles (s.cycles + 1)))
    ∧ (∃ r f, LogicSpec (fun a b => a != b) s.acc x r s.status f
      ∧ exec (.xorAX x) s = .next (((s.withAcc r).withStatus f).withCycles (s.cycles + 1)))
    ∧ exec (.movAX x) s = .next ((s.withAcc x).withCycles (s.cycles + 1))

/-- DAA stores ACC plus 00H, 06H, 60H or 66H at `[m]`, the high nibble being tested after the low adjustment (D17,
log 23), and writes C alone, for every `[m]` but STATUS (R214). -/
def Obligations.DecimalAdjust : Prop :=
  ∀ (s : State) (m : DAddr), Memory.wf 128 s.ram = true → target s m ≠ .reg .status →
    ∃ low high : Nat, ∃ r f t,
      ((9 < s.acc.toNat % 16 ∨ s.status.ac = true) → low = 0x06)
      ∧ (¬(9 < s.acc.toNat % 16 ∨ s.status.ac = true) → low = 0)
      ∧ ((9 < (s.acc.toNat + low) / 16 ∨ s.status.c = true) → high = 0x60 ∧ f.c = true)
      ∧ (¬(9 < (s.acc.toNat + low) / 16 ∨ s.status.c = true) → high = 0 ∧ f.c = false)
      ∧ r.toNat = (s.acc.toNat + low + high) % 256
      ∧ f = { s.status with c := f.c }
      ∧ exec (.daaM m) s = .next t ∧ FlagStoreOutcome s m r f t

/-- Adding two packed BCD bytes and adjusting gives the packed BCD sum modulo 100, and C says whether the sum reaches
100 (R206, R214, D17, log 23). -/
def Obligations.DecimalAdjustGivesBcdSum : Prop :=
  ∀ (s : State) (x : Byte) (m : DAddr), isBcd s.acc → isBcd x → target s m = .ram → Memory.wf 128 s.ram = true →
    ∃ t u, exec (.addAX x) s = .next t ∧ exec (.daaM m) t = .next u
      ∧ isBcd (Memory.read u.ram (effAddr s m).toNat)
      ∧ bcdNumber (Memory.read u.ram (effAddr s m).toNat) = (bcdNumber s.acc + bcdNumber x) % 100
      ∧ (u.status.c = true ↔ 100 ≤ bcdNumber s.acc + bcdNumber x)

/-! ## Logic, counting, rotating, moving -/

/-- AND, OR, XOR and CPLA put their result in ACC, write Z alone, and change nothing else (R221 to R223, R231). -/
def Obligations.LogicToAcc : Prop :=
  ∀ (s : State) (m : DAddr),
    (∃ r f t, LogicSpec (fun a b => a && b) s.acc (memValue s m) r s.status f
      ∧ exec (.andAM m) s = .next t ∧ AccOutcome s m r f 1 t)
    ∧ (∃ r f t, LogicSpec (fun a b => a || b) s.acc (memValue s m) r s.status f
      ∧ exec (.orAM m) s = .next t ∧ AccOutcome s m r f 1 t)
    ∧ (∃ r f t, LogicSpec (fun a b => a != b) s.acc (memValue s m) r s.status f
      ∧ exec (.xorAM m) s = .next t ∧ AccOutcome s m r f 1 t)
    ∧ ∃ r f t, LogicSpec (fun _ b => !b) s.acc (memValue s m) r s.status f
      ∧ exec (.cplaM m) s = .next t ∧ AccOutcome s m r f 1 t

/-- ANDM, ORM, XORM and CPL store their result at `[m]`, write Z alone, and change nothing else, for every `[m]` but
STATUS (R224 to R226, R230). -/
def Obligations.LogicToMemory : Prop :=
  ∀ (s : State) (m : DAddr), Memory.wf 128 s.ram = true → target s m ≠ .reg .status →
    (∃ r f t, LogicSpec (fun a b => a && b) s.acc (memValue s m) r s.status f
      ∧ exec (.andmAM m) s = .next t ∧ FlagStoreOutcome (afterOperand s m) m r f t)
    ∧ (∃ r f t, LogicSpec (fun a b => a || b) s.acc (memValue s m) r s.status f
      ∧ exec (.ormAM m) s = .next t ∧ FlagStoreOutcome (afterOperand s m) m r f t)
    ∧ (∃ r f t, LogicSpec (fun a b => a != b) s.acc (memValue s m) r s.status f
      ∧ exec (.xormAM m) s = .next t ∧ FlagStoreOutcome (afterOperand s m) m r f t)
    ∧ ∃ r f t, LogicSpec (fun _ b => !b) s.acc (memValue s m) r s.status f
      ∧ exec (.cplM m) s = .next t ∧ FlagStoreOutcome (afterOperand s m) m r f t

/-- MOV A,[m] and SWAPA put their result in ACC and write no flag; INCA and DECA write Z alone (R241, R243, R261,
R302). -/
def Obligations.MovesAndCountsToAcc : Prop :=
  ∀ (s : State) (m : DAddr),
    (∃ t, exec (.movAM m) s = .next t ∧ AccOutcome s m (memValue s m) s.status 1 t)
    ∧ (∃ r t, Swapped (memValue s m) r ∧ exec (.swapaM m) s = .next t ∧ AccOutcome s m r s.status 1 t)
    ∧ (∃ r f t, CountSpec ((memValue s m).toNat + 1) r s.status f
      ∧ exec (.incaM m) s = .next t ∧ AccOutcome s m r f 1 t)
    ∧ ∃ r f t, CountSpec ((memValue s m).toNat + 255) r s.status f
      ∧ exec (.decaM m) s = .next t ∧ AccOutcome s m r f 1 t

/-- RRA and RLA rotate into ACC and write no flag; RRCA and RLCA rotate through C and write C alone (R245, R247, R249,
R251). -/
def Obligations.RotatesToAcc : Prop :=
  ∀ (s : State) (m : DAddr),
    (∃ r t, RotatedRight (memValue s m) ((memValue s m).getLsbD 0) r
      ∧ exec (.rraM m) s = .next t ∧ AccOutcome s m r s.status 1 t)
    ∧ (∃ r t, RotatedLeft (memValue s m) ((memValue s m).getLsbD 7) r
      ∧ exec (.rlaM m) s = .next t ∧ AccOutcome s m r s.status 1 t)
    ∧ (∃ r t, RotatedRight (memValue s m) s.status.c r
      ∧ exec (.rrcaM m) s = .next t
      ∧ AccOutcome s m r { s.status with c := (memValue s m).getLsbD 0 } 1 t)
    ∧ ∃ r t, RotatedLeft (memValue s m) s.status.c r
      ∧ exec (.rlcaM m) s = .next t
      ∧ AccOutcome s m r { s.status with c := (memValue s m).getLsbD 7 } 1 t

/-- INC and DEC store `[m]` plus and minus one at `[m]` and write Z alone; RRC and RLC rotate it through C and write C
alone; all four for every `[m]` but STATUS. RR and RL rotate `[m]` in place and write no flag, STATUS included (R242, R244,
R246, R248, R250, R252). -/
def Obligations.CountsAndRotatesToMemory : Prop :=
  ∀ (s : State) (m : DAddr), Memory.wf 128 s.ram = true →
    (∃ r t, RotatedRight (memValue s m) ((memValue s m).getLsbD 0) r
      ∧ exec (.rrM m) s = .next t ∧ StoreOutcome (afterOperand s m) m r t)
    ∧ (∃ r t, RotatedLeft (memValue s m) ((memValue s m).getLsbD 7) r
      ∧ exec (.rlM m) s = .next t ∧ StoreOutcome (afterOperand s m) m r t)
    ∧ (target s m ≠ .reg .status →
      (∃ r t, RotatedRight (memValue s m) s.status.c r
        ∧ exec (.rrcM m) s = .next t
        ∧ FlagStoreOutcome (afterOperand s m) m r { s.status with c := (memValue s m).getLsbD 0 } t)
      ∧ (∃ r t, RotatedLeft (memValue s m) s.status.c r
        ∧ exec (.rlcM m) s = .next t
        ∧ FlagStoreOutcome (afterOperand s m) m r { s.status with c := (memValue s m).getLsbD 7 } t)
      ∧ (∃ r f t, CountSpec ((memValue s m).toNat + 1) r s.status f
        ∧ exec (.incM m) s = .next t ∧ FlagStoreOutcome (afterOperand s m) m r f t)
      ∧ ∃ r f t, CountSpec ((memValue s m).toNat + 255) r s.status f
        ∧ exec (.decM m) s = .next t ∧ FlagStoreOutcome (afterOperand s m) m r f t)

/-- The thirteen instructions that write flags and have STATUS as their destination complete, keep TO and PDF, leave OV,
Z, AC and C at free values, and change nothing else (R47, U6, log 36). -/
def Obligations.FlagWritersToStatus : Prop :=
  ∀ (s : State) (m : DAddr) (i : Instr), target s m = .reg .status →
    i ∈ [Instr.addmAM m, .adcmAM m, .submAM m, .sbcmAM m, .andmAM m, .ormAM m, .xormAM m, .cplM m, .incM m, .decM m,
      .rlcM m, .rrcM m, .daaM m] →
    ∃ t, exec i s = .next t ∧ t = (s.withStatus t.status).withCycles (s.cycles + 1)
      ∧ t.status.pdf = s.status.pdf ∧ t.status.timeOut = s.status.timeOut
      ∧ t.status.ov = (Config.freeFlags s.draws).getLsbD 3 ∧ t.status.z = (Config.freeFlags s.draws).getLsbD 2
      ∧ t.status.ac = (Config.freeFlags s.draws).getLsbD 1 ∧ t.status.c = (Config.freeFlags s.draws).getLsbD 0

/-- MOV [m],A, CLR [m] and SET [m] store ACC, 00H and FFH at `[m]` without reading it, write no flag, and change nothing
else (R262, R296, R297). -/
def Obligations.StoresWithoutReading : Prop :=
  ∀ (s : State) (m : DAddr), Memory.wf 128 s.ram = true →
    (∃ t, exec (.movMA m) s = .next t ∧ StoreOutcome s m s.acc t)
    ∧ (∃ t, exec (.clrM m) s = .next t ∧ StoreOutcome s m 0x00#8 t)
    ∧ ∃ t, exec (.setM m) s = .next t ∧ StoreOutcome s m 0xFF#8 t

/-- SWAP, SET [m].i and CLR [m].i read `[m]`, store the byte with its nibbles exchanged or with the one bit changed,
write no flag, and change nothing else (R264, R265, R301). -/
def Obligations.SwapAndBitWrites : Prop :=
  ∀ (s : State) (m : DAddr) (i : BitNo), Memory.wf 128 s.ram = true →
    (∃ r t, Swapped (memValue s m) r
      ∧ exec (.swapM m) s = .next t ∧ StoreOutcome (afterOperand s m) m r t)
    ∧ (∃ r t, WithBit (memValue s m) i true r
      ∧ exec (.setMi m i) s = .next t ∧ StoreOutcome (afterOperand s m) m r t)
    ∧ ∃ r t, WithBit (memValue s m) i false r
      ∧ exec (.clrMi m i) s = .next t ∧ StoreOutcome (afterOperand s m) m r t

/-! ## Branches -/

/-- SZ [m], SZ [m].i and SNZ [m].i pass over the next instruction exactly when `[m]` is zero, its bit is 0 and its bit
is 1, for one cycle more, and change nothing else (R270, R273, R275, R276). -/
def Obligations.SkipTests : Prop :=
  ∀ (s : State) (m : DAddr) (i : BitNo),
    ((memValue s m).toNat = 0 →
      exec (.szM m) s = .next (((afterOperand s m).withPc (s.pc + 1#11)).withCycles (s.cycles + 2)))
    ∧ ((memValue s m).toNat ≠ 0 → exec (.szM m) s = .next ((afterOperand s m).withCycles (s.cycles + 1)))
    ∧ ((memValue s m).getLsbD i.toNat = false →
      exec (.szMi m i) s = .next (((afterOperand s m).withPc (s.pc + 1#11)).withCycles (s.cycles + 2))
      ∧ exec (.snzMi m i) s = .next ((afterOperand s m).withCycles (s.cycles + 1)))
    ∧ ((memValue s m).getLsbD i.toNat = true →
      exec (.szMi m i) s = .next ((afterOperand s m).withCycles (s.cycles + 1))
      ∧ exec (.snzMi m i) s = .next (((afterOperand s m).withPc (s.pc + 1#11)).withCycles (s.cycles + 2)))

/-- SZA, SIZA and SDZA put `[m]`, `[m]` + 1 and `[m]` - 1 in ACC in any case, skip exactly when that is zero, and write
no flag (R274, R279, R280). -/
def Obligations.SkipLoads : Prop :=
  ∀ (s : State) (m : DAddr) (i : Instr) (n : Nat),
    (i, n) ∈ [(Instr.szaM m, 0), (.sizaM m, 1), (.sdzaM m, 255)] →
    ∃ r : Byte, r.toNat = ((memValue s m).toNat + n) % 256
      ∧ (r.toNat = 0 → exec i s
          = .next ((((afterOperand s m).withAcc r).withPc (s.pc + 1#11)).withCycles (s.cycles + 2)))
      ∧ (r.toNat ≠ 0 → exec i s = .next (((afterOperand s m).withAcc r).withCycles (s.cycles + 1)))

/-- SIZ and SDZ store `[m]` + 1 and `[m]` - 1 at `[m]`, skip exactly when that is zero, and write no flag (R277, R278).
On PCL they jump in the page, and when the result is zero they also skip or not, which is free (U7, log 37). -/
def Obligations.SkipModifies : Prop :=
  ∀ (s : State) (m : DAddr) (i : Instr) (n : Nat), Memory.wf 128 s.ram = true →
    (i, n) ∈ [(Instr.sizM m, 1), (.sdzM m, 255)] →
    ∃ r : Byte, r.toNat = ((memValue s m).toNat + n) % 256
      ∧ (target s m ≠ .reg .pcl → ∃ u, Stored (afterOperand s m) m r u
        ∧ (r.toNat = 0 → exec i s = .next ((u.withPc (u.pc + 1#11)).withCycles (u.cycles + 2)))
        ∧ (r.toNat ≠ 0 → exec i s = .next (u.withCycles (u.cycles + 1))))
      ∧ (target s m = .reg .pcl →
        (r.toNat ≠ 0 → exec i s
          = .next ((s.withPc (s.pc.extractLsb' 8 3 ++ r)).withCycles (s.cycles + 2)))
        ∧ (r.toNat = 0 →
          exec i s = .next ((s.withPc (s.pc.extractLsb' 8 3 ++ r)).withCycles (s.cycles + 2))
          ∨ exec i s = .next ((s.withPc (s.pc.extractLsb' 8 3 ++ r + 1#11)).withCycles (s.cycles + 3))))

/-- JMP loads PC, NOP only takes its cycle, and CALL pushes the next address and jumps; with four entries on the stack the
oldest is lost; HALT clears TO and the watchdog, sets PDF and halts the core at the next instruction's address (R38, R272,
R285, R295, R303; U4, log 34). -/
def Obligations.JumpCallNopAndHalt : Prop :=
  ∀ (s : State) (addr : PAddr),
    exec (.jmpAddr addr) s = .next ((s.withPc addr).withCycles (s.cycles + 2))
    ∧ exec .nop s = .next (s.withCycles (s.cycles + 1))
    ∧ exec .halt s = .next ((((s.withWdt { s.wdt with count := 0, prescaler := 0 }).withStatus
      { s.status with timeOut := false, pdf := true }).withMode .halted).withCycles (s.cycles + 1))
    ∧ (s.stack.length < 4 → exec (.callAddr addr) s
      = .next (((s.withStack (s.stack ++ [s.pc])).withPc addr).withCycles (s.cycles + 2)))
    ∧ ∀ a b c d : PAddr, s.stack = [a, b, c, d] → exec (.callAddr addr) s
      = .next (((s.withStack [b, c, d, s.pc]).withPc addr).withCycles (s.cycles + 2))

/-- RET, RET A,x and RETI take the newest entry off the stack into PC; RET A,x loads ACC, RETI sets EMI. With an empty
stack PC is a free value and the rest happens as always (R281 to R283; U5, log 35). -/
def Obligations.Returns : Prop :=
  ∀ (s : State) (x : Byte) (p : PAddr) (rest : List PAddr),
    (s.stack = rest ++ [p] ∨ (s.stack = [] ∧ rest = [] ∧ p = Config.freePc s.draws)) →
      exec .ret s = .next (((s.withPc p).withStack rest).withCycles (s.cycles + 2))
      ∧ exec (.retAX x) s = .next ((((s.withPc p).withStack rest).withAcc x).withCycles (s.cycles + 2))
      ∧ exec .reti s = .next ((((s.withPc p).withStack rest).withIntc { s.intc with emi := true }).withCycles
          (s.cycles + 2))

/-- MOV [m],A and ADDM A,[m] with PCL as destination jump in the 256-word page of PC and take two cycles; ADDM adds ACC
to the low byte of PC and writes its flags (R33, R205, R284; the page: D8, log 14). -/
def Obligations.ComputedJumps : Prop :=
  ∀ (s : State) (m : DAddr), target s m = .reg .pcl →
    (∃ t, exec (.movMA m) s = .next t ∧ t.pc.toNat = s.pc.toNat / 256 * 256 + s.acc.toNat
      ∧ t = (s.withPc t.pc).withCycles (s.cycles + 2))
    ∧ ∃ r f t, SumSpec s.acc (s.pc.extractLsb' 0 8) false r s.status f
      ∧ exec (.addmAM m) s = .next t ∧ t.pc.toNat = s.pc.toNat / 256 * 256 + r.toNat
      ∧ t = ((s.withPc t.pc).withStatus f).withCycles (s.cycles + 2)

/-- TABRDC and TABRDL store the low byte of the program word at TBLP, in the page of PC and in the last page, at `[m]`,
and its high seven bits in TBLH (R290 to R293; the page of TABRDC: D8, log 14). -/
def Obligations.TableReads : Prop :=
  ∀ (s : State) (m : DAddr) (i : Instr) (page : Nat), Memory.wf 128 s.ram = true →
    (i, page) ∈ [(Instr.tabrdcM m, s.pc.toNat / 256), (.tabrdlM m, 7)] →
    ∃ (a : PAddr) (low : Byte) (high : BitVec 7) (u : State),
      a.toNat = page * 256 + s.tblp.toNat
      ∧ (pmRead s a).toNat = high.toNat * 256 + low.toNat
      ∧ Stored s m low u
      ∧ exec i s = .next ((u.withTblh high).withCycles (u.cycles + 2))

/-! ## Watchdog instructions -/

/-- With the watchdog enabled: CLR WDT under the one-instruction option clears the watchdog, TO and PDF; CLR WDT1 and CLR
WDT2 under the two-instruction option clear them unless the same one was executed last, and are remembered; an
instruction of the other option clears or does nothing (R298 to R300; U10, log 38). -/
def Obligations.WatchdogClears : Prop :=
  ∀ s : State, s.cfg.opt.wdtEnabled = true →
    (s.cfg.opt.twoClears = false →
      exec .clrWdt s = .next (((s.withWdt { s.wdt with count := 0, prescaler := 0 }).withStatus
        { s.status with timeOut := false, pdf := false }).withCycles (s.cycles + 1))
      ∧ ∀ i ∈ [Instr.clrWdt1, .clrWdt2],
        exec i s = .next (((s.withWdt { s.wdt with count := 0, prescaler := 0 }).withStatus
          { s.status with timeOut := false, pdf := false }).withCycles (s.cycles + 1))
        ∨ exec i s = .next (s.withCycles (s.cycles + 1)))
    ∧ (s.cfg.opt.twoClears = true →
      (∀ p ∈ [(Instr.clrWdt1, WdtLast.first), (.clrWdt2, .second)],
        (s.wdt.last ≠ p.2 →
          exec p.1 s = .next (((s.withWdt { count := 0, prescaler := 0, last := p.2 }).withStatus
            { s.status with timeOut := false, pdf := false }).withCycles (s.cycles + 1)))
        ∧ (s.wdt.last = p.2 → exec p.1 s = .next (s.withCycles (s.cycles + 1))))
      ∧ (exec .clrWdt s = .next (((s.withWdt { s.wdt with count := 0, prescaler := 0 }).withStatus
            { s.status with timeOut := false, pdf := false }).withCycles (s.cycles + 1))
        ∨ exec .clrWdt s = .next (s.withCycles (s.cycles + 1))))

/-- With the watchdog disabled a clock of it does nothing, so it never times out (R360), and the clear instructions do
nothing but take their cycle: that they leave TO, PDF and wdt_last too is the model's choice (D25, log 31). -/
def Obligations.WatchdogDisabled : Prop :=
  ∀ s : State, s.cfg.opt.wdtEnabled = false →
    clockWdt s = s
    ∧ ∀ i ∈ [Instr.clrWdt, .clrWdt1, .clrWdt2], exec i s = .next (s.withCycles (s.cycles + 1))

/-! ## Whole-machine rules -/

/-- Every instruction completes for every operand in every state, and no step ends in a fault (R310). None itself changes
the configuration, program memory, the pins, the edge detectors, the PFD flip-flop, the clock output's divider, the
EEPROM, the events to come or the draw, and each takes one to three cycles (R34, R136, R440, D19). -/
def Obligations.EveryInstructionCompletes : Prop :=
  (∀ (i : Instr) (s : State), ∃ t, exec i s = .next t
    ∧ t.cfg = s.cfg ∧ t.program = s.program ∧ t.pins = s.pins ∧ t.seen = s.seen ∧ t.pfd = s.pfd
    ∧ t.oscDivider = s.oscDivider ∧ t.eeprom = s.eeprom ∧ t.script = s.script ∧ t.draws = s.draws
    ∧ s.cycles < t.cycles ∧ t.cycles ≤ s.cycles + 3)
  ∧ ∀ (s : State) (f : Fault), step s ≠ .fault f

/-- The core comes to be halted only through HALT (R390). -/
def Obligations.OnlyHaltHalts : Prop :=
  ∀ s t : State, s.mode = .running → step s = .next t → t.mode = .halted →
    acceptable s = none ∧ decodeWith s.cfg.enc (fetchWord s) = .ok .halt

/-- TO and PDF are written only by the watchdog clears and HALT, whatever the destination of the instruction is
(R45 to R47). -/
def Obligations.TimeOutAndPdfProtected : Prop :=
  ∀ (i : Instr) (s t : State), i ∉ [Instr.clrWdt, .clrWdt1, .clrWdt2, .halt] → exec i s = .next t →
    t.status.timeOut = s.status.timeOut ∧ t.status.pdf = s.status.pdf

/-- Every step keeps the invariant of the states between two steps: at most four stack entries, the memories in
canonical form and in their ranges, PDF = 1 and TO = 0 while halted, TO = 0 with the watchdog disabled (D25, log 31), a
measurement only in a timer that is on and in pulse width mode, an event not yet seen only in one that is on and in event
count mode (R35 to R38, R77, R349, R391, R436; when a write drops either: log 48). -/
def Obligations.StepKeepsInvariant : Prop := ∀ s t : State, s.Inv → step s = .next t → t.Inv

/-- The state after reset meets that invariant. -/
def Obligations.ResetMeetsInvariant : Prop := State.reset.Inv

/-- No step, its agents, events and resets included, changes the configuration or the program; the coming events are only
used up from the front (R7, R9, R34, R136; the events: log 42). -/
def Obligations.StepKeepsConfigAndProgram : Prop :=
  ∀ s t : State, step s = .next t → t.cfg = s.cfg ∧ t.program = s.program ∧ t.script <:+ s.script

/-! ## Timers and the watchdog -/

/-- At every overflow of a timer, in every mode and whatever the enable bits are, its request flag is set (R322); the
preload is loaded and the PFD flip-flop toggles if the timer is its source. -/
def Obligations.TimerOverflows : Prop :=
  (∀ s : State, s.tmr0.counter = 0xFF#8 →
    (countTimer0 s).intc = { s.intc with t0f := true }
    ∧ (countTimer0 s).tmr0 = { s.tmr0 with counter := s.tmr0.preload }
    ∧ ((countTimer0 s).pfd = s.pfd ↔ s.cfg.opt.pfdSource = .timer1))
  ∧ ∀ s : State, s.tmr1.counter = 0xFFFF#16 →
    (countTimer1 s).intc = { s.intc with t1f := true }
    ∧ (countTimer1 s).tmr1 = { s.tmr1 with counter := s.tmr1.preload }
    ∧ ((countTimer1 s).pfd = s.pfd ↔ s.cfg.opt.pfdSource = .timer0)

/-- With preload p the period of a timer is MAX + 1 - p counts: before them only the counter moves, and the last one
brings back p and requests (R343). -/
def Obligations.TimerPeriods : Prop :=
  (∀ (s : State) (n : Nat), s.tmr0.counter = s.tmr0.preload →
    (n < 256 - s.tmr0.preload.toNat →
      countTimer0^[n] s = s.withTmr0 { s.tmr0 with counter := s.tmr0.preload + BitVec.ofNat 8 n })
    ∧ (n = 256 - s.tmr0.preload.toNat →
      (countTimer0^[n] s).tmr0 = s.tmr0 ∧ (countTimer0^[n] s).intc.t0f = true))
  ∧ ∀ (s : State) (n : Nat), s.tmr1.counter = s.tmr1.preload →
    (n < 65536 - s.tmr1.preload.toNat →
      countTimer1^[n] s = s.withTmr1 { s.tmr1 with counter := s.tmr1.preload + BitVec.ofNat 16 n })
    ∧ (n = 65536 - s.tmr1.preload.toNat →
      (countTimer1^[n] s).tmr1 = s.tmr1 ∧ (countTimer1^[n] s).intc.t1f = true)

/-- Any 2^PSC consecutive system clocks make exactly one count of Timer 0 in timer mode, whatever the prescaler's phase; in
event count mode they make none but for an event that has come and is to be seen (R341, R342, R436; log 54). -/
def Obligations.PrescalerRatio : Prop :=
  ∀ s : State, s.tmr0.on = true →
    (s.tmr0.mode = modeTimer → s.tmr0.counter.toNat < 255 →
      (systemClock^[2 ^ s.tmr0.psc.toNat] s).tmr0.counter = s.tmr0.counter + 1)
    ∧ (s.tmr0.mode = modeEventCount →
      (s.tmr0.event = false → (systemClock^[2 ^ s.tmr0.psc.toNat] s).tmr0.counter = s.tmr0.counter)
      ∧ (s.tmr0.event = true → s.tmr0.counter.toNat < 255 →
        (systemClock^[2 ^ s.tmr0.psc.toNat] s).tmr0.counter = s.tmr0.counter + 1))

/-- The agents' run after an instruction on a running core in quiet surroundings: in each of the cycles it charged, four
system clocks at Timer 0, one count at Timer 1, and with that option one clock at the watchdog, and nothing else but the
EEPROM's write (R342, R351, R361, R362, R410; D19, log 25), as long as nothing overflows. That a Timer 1 on in mode 00 does
not count is the model's choice (D24, log 30; U9 prefers a refusal). -/
def Obligations.AgentsRunTheCycles : Prop :=
  ∀ t : State, t.mode = .running → t.script = [] → Settled t →
    (t.tmr0.on = true → t.tmr0.mode ≠ modePulseWidth) → (t.tmr1.on = true → t.tmr1.mode ≠ modePulseWidth) →
    t.tmr0.event = false → t.tmr1.event = false →
    t.tmr0.counter.toNat + timer0Counts t t.cycles ≤ 255 →
    t.tmr1.counter.toNat + timer1Counts t t.cycles ≤ 65535 →
    t.wdt.count.toNat + watchdogClocks t t.cycles ≤ 255 →
    runAgents t
      = (((((t.withTmr0 { t.tmr0 with
          counter := t.tmr0.counter + BitVec.ofNat 8 (timer0Counts t t.cycles)
          prescaler := t.tmr0.prescaler + BitVec.ofNat 7 (4 * t.cycles) }).withTmr1 { t.tmr1 with
          counter := t.tmr1.counter + BitVec.ofNat 16 (timer1Counts t t.cycles) }).withWdt { t.wdt with
          count := t.wdt.count + BitVec.ofNat 8 (watchdogClocks t t.cycles) }).withEeprom { t.eeprom with
          busy := t.eeprom.busy - t.cycles }).withCycles 0).withDraws (t.draws + 1)

/-- A transition of a timer's pin. In event count mode the active one is one count (R347): on a running core the next timer
clock, for Timer 0 the next system clock, sees it, so the count lags by one at most (R436), and in HALT it counts at once.
In pulse width mode it starts or ends a measurement, which the next timer clock sees (R349, R354; statement
PulseWidthMeasurement). An active transition of the counted signal counts at Timer 0 in mode 00 (R348). Overflow is at FFH
and FFFFH (R343); INT's pin is TMR0's (R384). The events and phases that wait for the clock, an earlier event counted at
the next one's transition, a stop before the start was seen, and the exact count otherwise are the model's reading (DEDUCED,
log 48 and log 54). -/
def Obligations.TimerPinEdges : Prop :=
  (∀ s : State, s.tmr0.on = true → getBit (paLevel s) 1 ≠ getBit s.seen.pa 1 →
    (s.tmr0.mode = 0b01#2 → getBit (paLevel s) 1 = s.tmr0.edge → (sense s).tmr0 = s.tmr0)
    ∧ (s.tmr0.mode = 0b01#2 → getBit (paLevel s) 1 ≠ s.tmr0.edge →
      (s.mode = .running → s.tmr0.event = false →
        (sense s).tmr0 = { s.tmr0 with event := true } ∧ (sense s).intc.t0f = s.intc.t0f)
      ∧ (s.mode = .running → s.tmr0.event = true →
        Counted0 s.tmr0 (sense s).tmr0 s.intc.t0f (sense s).intc.t0f)
      ∧ (s.mode = .halted → s.tmr0.event = false →
        Counted0 s.tmr0 (sense s).tmr0 s.intc.t0f (sense s).intc.t0f)
      ∧ (s.mode = .halted → s.tmr0.event = true → ∃ t f,
        Counted0 { s.tmr0 with event := false } t s.intc.t0f f
        ∧ Counted0 t (sense s).tmr0 f (sense s).intc.t0f))
    ∧ (s.tmr0.mode = 0b11#2 → getBit (paLevel s) 1 = s.tmr0.edge →
      (s.tmr0.pulse = .idle → (sense s).tmr0 = { s.tmr0 with pulse := .starting })
      ∧ (s.tmr0.pulse ≠ .idle → (sense s).tmr0 = s.tmr0))
    ∧ (s.tmr0.mode = 0b11#2 → getBit (paLevel s) 1 ≠ s.tmr0.edge →
      (s.tmr0.pulse = .starting → (sense s).tmr0 = { s.tmr0 with pulse := .brief })
      ∧ (s.tmr0.pulse = .measuring → (sense s).tmr0 = { s.tmr0 with pulse := .stopping })
      ∧ (s.tmr0.pulse ∉ [.starting, .measuring] → (sense s).tmr0 = s.tmr0)))
  ∧ (∀ s : State, s.tmr1.on = true → getBit (pbLevel s) 1 ≠ s.seen.pb1 →
    (s.tmr1.mode = 0b01#2 → getBit (pbLevel s) 1 = s.tmr1.edge → (sense s).tmr1 = s.tmr1)
    ∧ (s.tmr1.mode = 0b01#2 → getBit (pbLevel s) 1 ≠ s.tmr1.edge →
      (s.mode = .running → s.tmr1.event = false →
        (sense s).tmr1 = { s.tmr1 with event := true } ∧ (sense s).intc.t1f = s.intc.t1f)
      ∧ (s.mode = .running → s.tmr1.event = true →
        Counted1 s.tmr1 (sense s).tmr1 s.intc.t1f (sense s).intc.t1f)
      ∧ (s.mode = .halted → s.tmr1.event = false →
        Counted1 s.tmr1 (sense s).tmr1 s.intc.t1f (sense s).intc.t1f)
      ∧ (s.mode = .halted → s.tmr1.event = true → ∃ t f,
        Counted1 { s.tmr1 with event := false } t s.intc.t1f f
        ∧ Counted1 t (sense s).tmr1 f (sense s).intc.t1f))
    ∧ (s.tmr1.mode = 0b11#2 → getBit (pbLevel s) 1 = s.tmr1.edge →
      (s.tmr1.pulse = .idle → (sense s).tmr1 = { s.tmr1 with pulse := .starting })
      ∧ (s.tmr1.pulse ≠ .idle → (sense s).tmr1 = s.tmr1))
    ∧ (s.tmr1.mode = 0b11#2 → getBit (pbLevel s) 1 ≠ s.tmr1.edge →
      (s.tmr1.pulse = .starting → (sense s).tmr1 = { s.tmr1 with pulse := .brief })
      ∧ (s.tmr1.pulse = .measuring → (sense s).tmr1 = { s.tmr1 with pulse := .stopping })
      ∧ (s.tmr1.pulse ∉ [.starting, .measuring] → (sense s).tmr1 = s.tmr1)))
  ∧ (∀ s : State, s.tmr0.on = true → s.tmr0.mode = 0b01#2 →
    (s.tmr0.event = false → (systemClock s).tmr0 = { s.tmr0 with prescaler := s.tmr0.prescaler + 1 })
    ∧ (s.tmr0.event = true → Counted0 { s.tmr0 with event := false, prescaler := s.tmr0.prescaler + 1 }
      (systemClock s).tmr0 s.intc.t0f (systemClock s).intc.t0f))
  ∧ (∀ s : State, s.tmr1.on = true → s.tmr1.mode = 0b01#2 →
    (s.tmr1.event = false → cycleTimer1 s = s)
    ∧ (s.tmr1.event = true → Counted1 { s.tmr1 with event := false } (cycleTimer1 s).tmr1 s.intc.t1f
      (cycleTimer1 s).intc.t1f))
  ∧ ∀ s : State, s.tmr0.on = true → s.tmr0.mode = 0b00#2 → s.pins.cntSrc ≠ s.seen.cnt →
    (s.pins.cntSrc = s.tmr0.edge → (sense s).tmr0 = s.tmr0)
    ∧ (s.pins.cntSrc ≠ s.tmr0.edge → Counted0 s.tmr0 (sense s).tmr0 s.intc.t0f (sense s).intc.t0f)

/-- Pulse width mode at a timer clock: before the pulse it does not count, within it it counts, the clock that sees the
start begins the counting, the clock that sees the end clears TnON; whether those two clocks themselves count is free. A
halted core gives no timer clock, so TnON stays there (R349, R354, R391; log 54). -/
def Obligations.PulseWidthMeasurement : Prop :=
  (∀ s : State, s.tmr0.on = true → s.tmr0.mode = 0b11#2 →
    (s.tmr0.pulse = .idle → tickTimer0 s = s)
    ∧ (s.tmr0.pulse = .starting → ∃ t, t = s.withTmr0 { s.tmr0 with pulse := .measuring }
      ∧ (tickTimer0 s = t ∨ tickTimer0 s = countTimer0 t))
    ∧ (∀ k : Nat, s.tmr0.pulse = .measuring → s.tmr0.counter.toNat + k < 256 →
      tickTimer0^[k] s = s.withTmr0 { s.tmr0 with counter := s.tmr0.counter + BitVec.ofNat 8 k })
    ∧ (s.tmr0.pulse = .measuring → tickTimer0 s = countTimer0 s)
    ∧ (s.tmr0.pulse ∈ [.stopping, .brief] → ∃ t, t = s.withTmr0 { s.tmr0 with on := false, pulse := .idle }
      ∧ (tickTimer0 s = t ∨ tickTimer0 s = countTimer0 t)))
  ∧ (∀ s : State, s.tmr1.on = true → s.tmr1.mode = 0b11#2 →
    (s.tmr1.pulse = .idle → tickTimer1 s = s)
    ∧ (s.tmr1.pulse = .starting → ∃ t, t = s.withTmr1 { s.tmr1 with pulse := .measuring }
      ∧ (tickTimer1 s = t ∨ tickTimer1 s = countTimer1 t))
    ∧ (∀ k : Nat, s.tmr1.pulse = .measuring → s.tmr1.counter.toNat + k < 65536 →
      tickTimer1^[k] s = s.withTmr1 { s.tmr1 with counter := s.tmr1.counter + BitVec.ofNat 16 k })
    ∧ (s.tmr1.pulse = .measuring → tickTimer1 s = countTimer1 s)
    ∧ (s.tmr1.pulse ∈ [.stopping, .brief] → ∃ t, t = s.withTmr1 { s.tmr1 with on := false, pulse := .idle }
      ∧ (tickTimer1 s = t ∨ tickTimer1 s = countTimer1 t)))
  ∧ ∀ s : State, s.mode = .halted → systemCycle s = s

/-- EIF is set exactly at the transitions of PA1 that INTES1 (falling) and INTES0 (rising) enable, CF at the changes of
the comparator's output that CMPES selects; neither is ever cleared there (R321, R323, R373, R384). -/
def Obligations.RequestsFromInputs : Prop :=
  ∀ s : State,
    ((sense s).intc.eif = true ↔ s.intc.eif = true
      ∨ (getBit s.seen.pa 1 = true ∧ getBit (paLevel s) 1 = false
        ∧ getBit s.analog.misc s.cfg.miscPos.intes1 = true)
      ∨ (getBit s.seen.pa 1 = false ∧ getBit (paLevel s) 1 = true
        ∧ getBit s.analog.misc s.cfg.miscPos.intes0 = true))
    ∧ ((sense s).intc.cf = true ↔ s.intc.cf = true
      ∨ (s.seen.cmp = true ∧ s.pins.cmpOut = false)
      ∨ (s.seen.cmp = false ∧ s.pins.cmpOut = true
        ∧ getBit s.analog.misc s.cfg.miscPos.cmpes = s.cfg.cmpesBoth))

/-- The watchdog counts 256 times 2^WS clocks from its clear to its time-out, and before that only its counters move
(R362; the ratios: D23, log 29). -/
def Obligations.WatchdogPeriod : Prop :=
  ∀ (s : State) (n : Nat), s.cfg.opt.wdtEnabled = true → s.wdt.count = 0 → s.wdt.prescaler = 0 →
    (n < 256 * 2 ^ (s.wdts.toNat % 8) →
      clockWdt^[n] s = s.withWdt { s.wdt with count := BitVec.ofNat 8 n, prescaler := BitVec.ofNat 7 (n / 256) })
    ∧ (n = 256 * 2 ^ (s.wdts.toNat % 8) → ∃ w, clockWdt^[n] s = wdtReset (s.withWdt w))

/-! ## Reset and wake-up -/

/-- The columns of R79: RES and the watchdog on a running core and RES on a halted one are full resets that keep the
general registers and RAM, with TO and PDF as R46 says; the watchdog on a halted core changes PC, the stack, TO, PDF and
the watchdog alone (and the draws of log 22 and 53); a power-on gives the control registers the same values and also
clears TO and PDF (R421 to R426). That RAM is kept is the model's choice D12 (log 18), PB = PBC = FFH is D14 (log 20). -/
def Obligations.ResetColumns : Prop :=
  ∀ s : State,
    (s.mode = .running →
      FullReset s (resReset s) ∧ (resReset s).status = s.status
      ∧ FullReset s (wdtReset s) ∧ (wdtReset s).status = { s.status with timeOut := true })
    ∧ (s.mode = .halted →
      FullReset s (resReset s) ∧ (resReset s).status = { s.status with timeOut := false, pdf := true }
      ∧ (wdtReset s).status = { s.status with timeOut := true, pdf := true }
      ∧ (wdtReset s).wdt.count = 0#8 ∧ (wdtReset s).wdt.prescaler = 0#7
      ∧ ∃ p, wdtReset s = ((((((((s.withPc 0x000#11).withStack []).withMode .running).withStatus
          (wdtReset s).status).withWdt (wdtReset s).wdt).withPfd (wdtReset s).pfd).withTmr0
          { s.tmr0 with prescaler := p })).withDraws (wdtReset s).draws)
    ∧ ControlReset (applyReset .powerOn s)
    ∧ (applyReset .powerOn s).status.timeOut = false ∧ (applyReset .powerOn s).status.pdf = false
    ∧ (applyReset .powerOn s).program = s.program ∧ (applyReset .powerOn s).cfg = s.cfg
    ∧ (s.eeprom.busy = 0 → (applyReset .powerOn s).eeprom.cells = s.eeprom.cells)

/-- The machine after reset, in the registers to which column POR of R79 gives a value. -/
def Obligations.ResetState : Prop :=
  State.reset.pc = 0x000#11 ∧ State.reset.stack = [] ∧ State.reset.mode = .running ∧ State.reset.wdts = 0x07#8
    ∧ State.reset.status.timeOut = false ∧ State.reset.status.pdf = false
    ∧ State.reset.intc.emi = false ∧ (∀ k : IrqSource, State.reset.intc.flag k = false)
    ∧ (∀ k : IrqSource, State.reset.intc.enable k = false)
    ∧ State.reset.tmr0.mode = 0b00#2 ∧ State.reset.tmr0.on = false ∧ State.reset.tmr0.edge = false
    ∧ State.reset.tmr0.psc = 0b100#3 ∧ State.reset.tmr0.prescaler = 0#7
    ∧ State.reset.tmr1.mode = 0b00#2 ∧ State.reset.tmr1.on = false ∧ State.reset.tmr1.edge = true
    ∧ State.reset.wdt.count = 0#8 ∧ State.reset.wdt.prescaler = 0#7
    ∧ State.reset.ports = { pa := 0xFF#8, pac := 0xFF#8, pb := 0xFF#8, pbc := 0xFF#8 }
    ∧ State.reset.analog = { misc := 0x80#8, opac1 := 0x00#8, opac2 := 0x00#8, opac3 := 0x00#8, cmpc := 0x00#8 }

/-- A request whose flag goes from 0 to 1 wakes a halted core, enabled or not; then it is accepted, with the address
after HALT pushed, or the instruction after HALT runs; a flag that was already 1 wakes nothing (R394). A falling edge on
a PA pin with its wake-up option on wakes it and leaves everything else (R395). -/
def Obligations.WakeUps : Prop :=
  (∀ (s : State) (k : IrqSource), s.mode = .halted →
    (s.intc.flag k = false →
      (requestInterrupt k s).mode = .running ∧ (requestInterrupt k s).intc.flag k = true
      ∧ (∀ j : IrqSource, acceptable (requestInterrupt k s) = some j →
        ∃ u, step (requestInterrupt k s) = .next (runAgents u) ∧ u.pc = j.vector ∧ u.stack = s.stack ++ [s.pc])
      ∧ (acceptable (requestInterrupt k s) = none → ∀ (i : Instr) (u : State), decodeWith s.cfg.enc (pmRead s s.pc) = .ok i →
        exec i ((requestInterrupt k s).withPc (s.pc + 1#11)) = .next u →
        timerModeClash (requestInterrupt k s) u = false → step (requestInterrupt k s) = .next (runAgents u)))
    ∧ (s.intc.flag k = true → (requestInterrupt k s).mode = .halted))
  ∧ ∀ (s : State) (before now : Byte),
    ((∃ i, i < 8 ∧ s.cfg.opt.paWake.getLsbD i = true ∧ before.getLsbD i = true ∧ now.getLsbD i = false) →
      wakeOnPa before now s = s.withMode .running)
    ∧ ((∀ i, i < 8 → s.cfg.opt.paWake.getLsbD i = true → before.getLsbD i = true → now.getLsbD i = true) →
      wakeOnPa before now s = s)
    ∧ ((∃ i, i < 8 ∧ s.cfg.opt.paWake.getLsbD i = true ∧ s.seen.pa.getLsbD i = true ∧ (paLevel s).getLsbD i = false) →
      (sense s).mode = .running)

/-! ## Ports and the EEPROM -/

/-- A read of a port bit gives the latch of an output and, of an input, the outside's level where the outside drives it
and 1 where the pull-up option holds it, for pins that have their port function (which PA pins an OPA takes: DEDUCED,
log 43) and are not SDA pulled low by the EEPROM (R61, R380; SDA: statement EepromLines). As PFD output PA0 shows the flip-flop while
latch bit 0 is 1 and is low while it is 0 (R386; a read gives the latch: log 51). As clock output PB6 is the open-drain
output of a divider by 4 that every system clock advances (R381; log 55). That PB6 has the outside's level with the crystal
is the model's reading (DEDUCED, log 43). -/
def Obligations.PortReads : Prop :=
  (∀ (s : State) (i : BitNo),
    (getBit (paAnalog s) i = false →
      (getBit s.ports.pac i = false → getBit (regValue s .pa) i = getBit s.ports.pa i)
      ∧ (getBit s.ports.pac i = true → getBit s.pins.paDriven i = true →
        getBit (regValue s .pa) i = getBit s.pins.paLevel i)
      ∧ (getBit s.ports.pac i = true → getBit s.pins.paDriven i = false → getBit s.cfg.opt.paPull i = true →
        getBit (regValue s .pa) i = true))
    ∧ (getBit (pbOff s) i = false → (eepromOnPortB s = false ∨ s.eeprom.pull = false ∨ i ≠ 4#3) →
      (getBit s.ports.pbc i = false → getBit (regValue s .pb) i = getBit s.ports.pb i)
      ∧ (getBit s.ports.pbc i = true → getBit s.pins.pbDriven i = true →
        getBit (regValue s .pb) i = getBit s.pins.pbLevel i)
      ∧ (getBit s.ports.pbc i = true → getBit s.pins.pbDriven i = false → getBit s.cfg.opt.pbPull i = true →
        getBit (regValue s .pb) i = true)))
  ∧ (∀ s : State, s.cfg.opt.pa0Pfd = true → getBit s.ports.pac 0 = false →
    getBit (paLevel s) 0 = (getBit s.ports.pa 0 && s.pfd)
    ∧ getBit (regValue s .pa) 0 = getBit s.ports.pa 0)
  ∧ ∀ s : State,
    (s.cfg.opt.osc = .rcClockOut →
      getBit (pbLevel s) 6 = (getBit s.pins.pbLevel 6 && (s.oscDivider.getLsbD 1)))
    ∧ (s.cfg.opt.osc = .crystal → getBit (pbLevel s) 6 = getBit s.pins.pbLevel 6)
    ∧ (systemClock s).oscDivider = s.oscDivider + 1

/-- A write of PA or PB stores all eight bits in the latch, whatever the directions are, and a latch bit shows on its pin
once the pin is an output (R382), for pins that have their port function and are not the EEPROM's SDA, an open drain
(statement EepromLines). Which PA pins an OPA takes is the model's reading (R370; DEDUCED, log 43). -/
def Obligations.PortWrites : Prop :=
  (∀ (s : State) (m : DAddr),
    (target s m = .reg .pa → exec (.movMA m) s
      = .next ((s.withPorts { s.ports with pa := s.acc }).withCycles (s.cycles + 1)))
    ∧ (target s m = .reg .pb → exec (.movMA m) s
      = .next ((s.withPorts { s.ports with pb := s.acc }).withCycles (s.cycles + 1))))
  ∧ ∀ (s : State) (i : BitNo),
    (getBit (paAnalog s) i = false → (i = 0#3 → s.cfg.opt.pa0Pfd = false) → getBit s.ports.pac i = false →
      getBit (paLevel s) i = getBit s.ports.pa i)
    ∧ (getBit (pbOff s) i = false → (eepromOnPortB s = false ∨ i ≠ 4#3) → getBit s.ports.pbc i = false →
      getBit (pbLevel s) i = getBit s.ports.pb i)

/-- The EEPROM's lines. On port B, SDA is low exactly when the latch of PB4 drives it low, the outside drives it low or the
EEPROM pulls it low, and PB4 has its level; a read of PB4 gives that level of an input, and of an output the latch, but low
while the EEPROM pulls SDA low (DEDUCED, log 28). SCL is PB5's level. On pins of their own they are those pins, with the
EEPROM's pull. Whenever the inputs are looked at, the EEPROM follows the present levels of the two, and a part without an
EEPROM has none that moves (R2, R400; D22, log 28). -/
def Obligations.EepromLines : Prop :=
  ∀ s : State,
    (eepromOnPortB s = true →
      (sdaLine s = false ↔ (getBit s.ports.pbc 4 = false ∧ getBit s.ports.pb 4 = false)
        ∨ (getBit s.pins.pbDriven 4 = true ∧ getBit s.pins.pbLevel 4 = false) ∨ s.eeprom.pull = true)
      ∧ getBit (pbLevel s) 4 = sdaLine s
      ∧ (getBit s.ports.pbc 4 = true → getBit (regValue s .pb) 4 = sdaLine s)
      ∧ (getBit s.ports.pbc 4 = false → getBit (regValue s .pb) 4 = (getBit s.ports.pb 4 && !s.eeprom.pull))
      ∧ sclLine s = getBit (pbLevel s) 5
      ∧ (getBit s.ports.pbc 5 = false → sclLine s = getBit s.ports.pb 5)
      ∧ (getBit s.ports.pbc 5 = true → getBit s.pins.pbDriven 5 = true → sclLine s = getBit s.pins.pbLevel 5))
    ∧ (hasEeprom s = true → eepromOnPortB s = false →
      sdaLine s = (s.pins.sda && !s.eeprom.pull) ∧ sclLine s = s.pins.scl)
    ∧ (hasEeprom s = true → ∀ e, e = s.eeprom.follow s.draws s.cfg.writeTime [(sdaLine s, sclLine s)] →
      (sense s).eeprom = { e with seenSda := sdaLine (s.withEeprom e) })
    ∧ (hasEeprom s = false → (sense s).eeprom = s.eeprom)

/-- The byte write of R409: START, A0H, ACK, address, ACK, data, ACK, STOP stores the data in the addressed cell, leaves
the counter one further and the EEPROM busy for its write time. -/
def Obligations.EepromByteWrite : Prop :=
  ∀ (d w : Nat) (e : Eeprom) (a v : Byte), e.phase = .standby → e.busy = 0 → e.seenSda = true → e.seenScl = true →
    Memory.wf 128 e.cells = true →
    ∃ e', e.follow d w (startLevels ++ byteLevels 0xA0#8 ++ bitLevels false ++ byteLevels a ++ bitLevels false
        ++ byteLevels v ++ bitLevels false ++ stopLevels) = e'
      ∧ Memory.read e'.cells (a.toNat % 128) = v
      ∧ (∀ b, b ≠ a.toNat % 128 → Memory.read e'.cells b = Memory.read e.cells b)
      ∧ e'.counter.toNat = (a.toNat + 1) % 128 ∧ e'.busy = w ∧ e'.phase = .standby ∧ e'.pull = false

/-- The current address read of R406: after START, A1H and the acknowledge the EEPROM shows the cell at its counter, the
highest bit first, on SDA, and then its counter is one further; during a write cycle it acknowledges nothing (R410). That
it then stands by until the next START is the model's choice (log 41). -/
def Obligations.EepromRead : Prop :=
  ∀ (d w : Nat) (e : Eeprom), e.phase = .standby → e.seenSda = true → e.seenScl = true →
    (e.busy = 0 →
      (e.follow d w (startLevels ++ byteLevels 0xA1#8)).pull = true
      ∧ (∀ k, k < 8 →
        (e.follow d w (startLevels ++ byteLevels 0xA1#8 ++ bitLevels false
          ++ (byteLevels (Memory.read e.cells e.counter.toNat)).take (3 * k))).pull
            = !(Memory.read e.cells e.counter.toNat).getLsbD (7 - k))
      ∧ (e.follow d w (startLevels ++ byteLevels 0xA1#8 ++ bitLevels false
          ++ byteLevels (Memory.read e.cells e.counter.toNat))).counter = e.counter + 1)
    ∧ (e.busy ≠ 0 → ∀ b : Byte,
      (e.follow d w (startLevels ++ byteLevels b)).pull = false
      ∧ (e.follow d w (startLevels ++ byteLevels b)).phase = .standby
      ∧ (e.follow d w (startLevels ++ byteLevels b)).cells = e.cells)
end

