-- ==== Sys2Proof/Laws/Memory.lean ====
section
/-! SUPPORT. Laws of the sparse memories: a read after a write, and that a write keeps the canonical form. -/

namespace Sys2Proof.Machine

variable {w : Nat}

@[simp] theorem Memory.read_nil (a : Nat) : Memory.read ([] : Memory w) a = 0#w := rfl

theorem Memory.read_cons (k : Nat) (x : BitVec w) (rest : Memory w) (a : Nat) :
    Memory.read ((k, x) :: rest) a = if a = k then x else Memory.read rest a := rfl

/-- An address below every listed one reads as unlisted. -/
theorem Memory.read_of_lt {m : Memory w} {a : Nat} (h : ∀ p ∈ m, a < p.1) : Memory.read m a = 0#w := by
  induction m with
  | nil => rfl
  | cons p rest ih =>
    obtain ⟨k, x⟩ := p
    have hk : a < k := h (k, x) (by simp)
    rw [Memory.read_cons, if_neg (by omega)]
    exact ih fun q hq => h q (by simp [hq])

theorem Memory.wf_cons {bound k : Nat} {x : BitVec w} {rest : Memory w} :
    Memory.wf bound ((k, x) :: rest) = true ↔
      k < bound ∧ x ≠ 0#w ∧ (∀ p ∈ rest, k < p.1) ∧ Memory.wf bound rest = true := by
  simp [Memory.wf, and_assoc]

/-- A write is seen at its address. -/
theorem Memory.read_write_same {bound : Nat} {m : Memory w} (h : Memory.wf bound m = true) (a : Nat) (v : BitVec w) :
    Memory.read (Memory.write m a v) a = v := by
  induction m with
  | nil => by_cases hv : v = 0#w <;> simp [Memory.write, hv, Memory.read_cons]
  | cons p rest ih =>
    obtain ⟨k, x⟩ := p
    obtain ⟨-, -, hlt, hr⟩ := Memory.wf_cons.mp h
    unfold Memory.write
    split
    · split
      · rename_i h1 hv
        rw [hv]
        refine Memory.read_of_lt fun q hq => ?_
        rcases List.mem_cons.mp hq with rfl | hq
        · exact h1
        · exact lt_trans h1 (hlt q hq)
      · simp [Memory.read_cons]
    · split
      · rename_i h2
        split
        · rename_i hv
          rw [hv, h2]
          exact Memory.read_of_lt hlt
        · simp [Memory.read_cons]
      · rename_i h2
        simp [Memory.read_cons, h2, ih hr]

/-- A write leaves every other address alone. -/
theorem Memory.read_write_other (m : Memory w) {a b : Nat} (hab : b ≠ a) (v : BitVec w) :
    Memory.read (Memory.write m a v) b = Memory.read m b := by
  induction m with
  | nil => by_cases hv : v = 0#w <;> simp [Memory.write, hv, Memory.read_cons, hab]
  | cons p rest ih =>
    obtain ⟨k, x⟩ := p
    unfold Memory.write
    split
    · split <;> simp [Memory.read_cons, hab]
    · split
      · rename_i h2
        subst h2
        split <;> simp [Memory.read_cons, hab]
      · simp [Memory.read_cons, ih]

/-- The addresses listed after a write are among those before and the written one. -/
theorem Memory.mem_write {m : Memory w} {a : Nat} {v : BitVec w} {p : Nat × BitVec w} (hp : p ∈ Memory.write m a v) :
    p ∈ m ∨ p.1 = a := by
  induction m with
  | nil =>
    by_cases hv : v = 0#w
    · simp [Memory.write, hv] at hp
    · simp [Memory.write, hv] at hp
      simp [hp]
  | cons q rest ih =>
    obtain ⟨k, x⟩ := q
    unfold Memory.write at hp
    split at hp
    · split at hp
      · exact .inl hp
      · rcases List.mem_cons.mp hp with rfl | hp
        · exact .inr rfl
        · exact .inl hp
    · split at hp
      · split at hp
        · exact .inl (by simp [hp])
        · rcases List.mem_cons.mp hp with rfl | hp
          · exact .inr rfl
          · exact .inl (by simp [hp])
      · rcases List.mem_cons.mp hp with rfl | hp
        · exact .inl (by simp)
        · rcases ih hp with h | h
          · exact .inl (by simp [h])
          · exact .inr h

/-- A write below the bound keeps the canonical form. -/
theorem Memory.write_wf {bound : Nat} {m : Memory w} (h : Memory.wf bound m = true) {a : Nat} (ha : a < bound)
    (v : BitVec w) : Memory.wf bound (Memory.write m a v) = true := by
  induction m with
  | nil => by_cases hv : v = 0#w <;> simp [Memory.write, hv, Memory.wf, ha]
  | cons p rest ih =>
    obtain ⟨k, x⟩ := p
    obtain ⟨hk, hx, hlt, hr⟩ := Memory.wf_cons.mp h
    unfold Memory.write
    split
    · rename_i h1
      split
      · exact h
      · rename_i hv
        refine Memory.wf_cons.mpr ⟨ha, hv, fun q hq => ?_, h⟩
        rcases List.mem_cons.mp hq with rfl | hq
        · exact h1
        · exact lt_trans h1 (hlt q hq)
    · split
      · rename_i h2
        split
        · exact hr
        · rename_i hv
          exact Memory.wf_cons.mpr ⟨ha, hv, by rw [h2]; exact hlt, hr⟩
      · rename_i h1 h2
        refine Memory.wf_cons.mpr ⟨hk, hx, fun q hq => ?_, ih hr⟩
        rcases Memory.mem_write hq with hq | hq
        · exact hlt q hq
        · omega

end Sys2Proof.Machine
end

