-- ==== Sys2Proof/Laws/State.lean ====
section
/-! SUPPORT. Laws of State's named updates. The lemma for each field of each update (`withAcc_pc` and so on) is generated
beside the definitions by @[simps]; here are the laws of two updates of one field and of writing back what is there. -/

namespace Sys2Proof.Machine
variable (s : State)

@[simp] theorem State.withAcc_withAcc (a b : Byte) : (s.withAcc a).withAcc b = s.withAcc b := rfl
@[simp] theorem State.withPc_withPc (a b : PAddr) : (s.withPc a).withPc b = s.withPc b := rfl
@[simp] theorem State.withStack_withStack (a b : List PAddr) : (s.withStack a).withStack b = s.withStack b := rfl
@[simp] theorem State.withStatus_withStatus (a b : Status) : (s.withStatus a).withStatus b = s.withStatus b := rfl
@[simp] theorem State.withIntc_withIntc (a b : Interrupts) : (s.withIntc a).withIntc b = s.withIntc b := rfl
@[simp] theorem State.withTmr0_withTmr0 (a b : Timer0) : (s.withTmr0 a).withTmr0 b = s.withTmr0 b := rfl
@[simp] theorem State.withTmr1_withTmr1 (a b : Timer1) : (s.withTmr1 a).withTmr1 b = s.withTmr1 b := rfl
@[simp] theorem State.withWdt_withWdt (a b : Watchdog) : (s.withWdt a).withWdt b = s.withWdt b := rfl
@[simp] theorem State.withOscDivider_withOscDivider (a b : BitVec 2) :
    (s.withOscDivider a).withOscDivider b = s.withOscDivider b := rfl
@[simp] theorem State.withRam_withRam (a b : Memory 8) : (s.withRam a).withRam b = s.withRam b := rfl
@[simp] theorem State.withProgram_withProgram (a b : Memory 15) : (s.withProgram a).withProgram b = s.withProgram b := rfl
@[simp] theorem State.withEeprom_withEeprom (a b : Eeprom) : (s.withEeprom a).withEeprom b = s.withEeprom b := rfl
@[simp] theorem State.withCycles_withCycles (a b : Nat) : (s.withCycles a).withCycles b = s.withCycles b := rfl
@[simp] theorem State.withDraws_withDraws (a b : Nat) : (s.withDraws a).withDraws b = s.withDraws b := rfl
@[simp] theorem State.withMode_withMode (a b : CoreMode) : (s.withMode a).withMode b = s.withMode b := rfl

@[simp] theorem State.withAcc_acc_self : s.withAcc s.acc = s := rfl
@[simp] theorem State.withPc_pc_self : s.withPc s.pc = s := rfl
@[simp] theorem State.withStatus_status_self : s.withStatus s.status = s := rfl
@[simp] theorem State.withIntc_intc_self : s.withIntc s.intc = s := rfl
@[simp] theorem State.withOscDivider_oscDivider_self : s.withOscDivider s.oscDivider = s := rfl
@[simp] theorem State.withTmr0_tmr0_self : s.withTmr0 s.tmr0 = s := rfl
@[simp] theorem State.withEeprom_eeprom_self : s.withEeprom s.eeprom = s := rfl
@[simp] theorem State.withWdt_wdt_self : s.withWdt s.wdt = s := rfl
@[simp] theorem State.withSeen_seen_self : s.withSeen s.seen = s := rfl
@[simp] theorem State.withRam_ram_self : s.withRam s.ram = s := rfl
@[simp] theorem State.withStack_stack_self : s.withStack s.stack = s := rfl
@[simp] theorem State.withCycles_cycles_self : s.withCycles s.cycles = s := rfl
@[simp] theorem State.withTmr1_tmr1_self : s.withTmr1 s.tmr1 = s := rfl

end Sys2Proof.Machine
end

