-- ==== Sys2Proof/Laws/Ops.lean ====
section
/-! SUPPORT. Laws of the shared operations: for each, once, what it can do, and the fields it leaves. -/

namespace Sys2Proof.Machine
variable (s : State)

/-! ## Small operations, rewritten to State's named updates -/

@[simp] theorem State.charge_eq (n : Nat) : s.charge n = s.withCycles (s.cycles + n) := rfl
@[simp] theorem State.skip_eq : s.skip = (s.withPc (s.pc + 1#11)).withCycles (s.cycles + 1) := rfl
@[simp] theorem State.popPc_eq :
    s.popPc = (s.withPc (s.stack.getLastD (Config.freePc s.draws))).withStack s.stack.dropLast := rfl
@[simp] theorem restartWdt_eq : restartWdt s = s.withWdt { s.wdt with count := 0, prescaler := 0 } := rfl
@[simp] theorem afterFetch_eq : afterFetch s = s.withPc (s.pc + 1#11) := rfl

/-- `Push` with room on the stack (R38). -/
theorem State.push_room (v : PAddr) (h : s.stack.length < 4) : s.push v = s.withStack (s.stack ++ [v]) := by
  unfold State.push
  rw [show s.stack.length + 1 - 4 = 0 by omega, List.drop_zero]

/-- `Push` on a full stack: the oldest entry is lost (R38). -/
theorem State.push_full (v : PAddr) (h : s.stack.length = 4) : s.push v = s.withStack (s.stack.tail ++ [v]) := by
  unfold State.push
  obtain ⟨a, b, c, d, hs⟩ : ∃ a b c d, s.stack = [a, b, c, d] := by
    match hs : s.stack, h with
    | [a, b, c, d], _ => exact ⟨a, b, c, d, rfl⟩
  rw [hs]
  rfl

/-- The stack never has more than four entries after a push (R37). -/
theorem State.push_depth (v : PAddr) : (s.push v).stack.length ≤ 4 := by
  simp only [State.push, State.withStack_stack, List.length_drop, List.length_append, List.length_singleton]
  omega

/-- `Push` changes the stack alone. -/
theorem State.push_eq (v : PAddr) : s.push v = s.withStack (s.push v).stack := rfl

/-- `skipIf` skips or does nothing. -/
theorem State.skipIf_eq (b : Bool) :
    s.skipIf b = (s.withPc (if b then s.pc + 1#11 else s.pc)).withCycles (s.cycles + b.toNat) := by
  cases b <;> rfl

/-! ## Registers -/

/-- A read of a register changes at most Timer 1's low-byte buffer (R125). -/
theorem regAfterRead_eq (r : Sfr) :
    regAfterRead s r = s.withTmr1 { s.tmr1 with buffer := (regAfterRead s r).tmr1.buffer } := by
  cases r <;> rfl

/-- `MemRead` changes at most Timer 1's low-byte buffer (R125). -/
theorem afterRead_eq (m : DAddr) :
    afterRead s m = s.withTmr1 { s.tmr1 with buffer := (afterRead s m).tmr1.buffer } := by
  unfold afterRead
  split
  · exact regAfterRead_eq s _
  · rfl
  · rfl

/-- `MemRead` changes nothing unless it reads TMR1H. -/
theorem afterRead_of_ne (m : DAddr) (h : target s m ≠ .reg .tmr1h) : afterRead s m = s := by
  unfold afterRead
  split
  · rename_i r hr
    cases r <;> first | rfl | exact absurd hr h
  · rfl
  · rfl

/-- `MemWrite` by the location (R126). -/
theorem memWrite_cases (m : DAddr) (v : Byte) :
    (∃ r, target s m = .reg r ∧ memWrite s m v = regWrite s v r) ∨
    (target s m = .ram ∧ memWrite s m v = s.withRam (Memory.write s.ram (effAddr s m).toNat v)) ∨
    (target s m = .undefined ∧ memWrite s m v = s) := by
  unfold memWrite
  split
  · rename_i r hr; exact .inl ⟨r, hr, rfl⟩
  · rename_i hr; exact .inr (.inl ⟨hr, rfl⟩)
  · rename_i hr; exact .inr (.inr ⟨hr, rfl⟩)

theorem memWrite_of_reg {m : DAddr} {r : Sfr} (h : target s m = .reg r) (v : Byte) :
    memWrite s m v = regWrite s v r := by simp [memWrite, h]

theorem memWrite_of_ram {m : DAddr} (h : target s m = .ram) (v : Byte) :
    memWrite s m v = s.withRam (Memory.write s.ram (effAddr s m).toNat v) := by simp [memWrite, h]

theorem memWrite_of_undefined {m : DAddr} (h : target s m = .undefined) (v : Byte) : memWrite s m v = s := by
  simp [memWrite, h]

theorem memValue_of_reg {m : DAddr} {r : Sfr} (h : target s m = .reg r) : memValue s m = regValue s r := by
  simp [memValue, h]

theorem memValue_of_ram {m : DAddr} (h : target s m = .ram) :
    memValue s m = Memory.read s.ram (effAddr s m).toNat := by simp [memValue, h]

theorem memValue_of_undefined {m : DAddr} (h : target s m = .undefined) : memValue s m = 0x00#8 := by
  simp [memValue, h]

/-- A RAM location lies at GPR_BASE or above (R36, R123). -/
theorem base_le_of_ram {c : Config} {e : DAddr} (h : locate c e = .ram) : c.gprBase ≤ e := by
  unfold locate at h
  split at h
  · cases h
  · split at h
    · assumption
    · cases h

/-- A result to data memory (R130, U6): a write and the flags, or, for a flag-writing operation on STATUS, free flags. -/
theorem resultToMem_cases (m : DAddr) (o : AluOut) :
    (target s m = .reg .status ∧ o.flags.writes = true ∧ resultToMem s m o = s.withStatus (freeStatus s)) ∨
    ((target s m ≠ .reg .status ∨ o.flags.writes = false) ∧
      resultToMem s m o = (memWrite s m o.value).withStatus (o.flags.apply (memWrite s m o.value).status)) := by
  unfold resultToMem
  by_cases h : target s m = .reg .status <;> cases hw : o.flags.writes <;> simp [h]

/-! ## The fields an instruction's operand accesses leave -/

@[simp] theorem regWrite_cfg (v : Byte) (r : Sfr) : (regWrite s v r).cfg = s.cfg := by cases r <;> rfl
@[simp] theorem regWrite_mode (v : Byte) (r : Sfr) : (regWrite s v r).mode = s.mode := by cases r <;> rfl
@[simp] theorem regWrite_wdt (v : Byte) (r : Sfr) : (regWrite s v r).wdt = s.wdt := by cases r <;> rfl
@[simp] theorem regWrite_pfd (v : Byte) (r : Sfr) : (regWrite s v r).pfd = s.pfd := by cases r <;> rfl
@[simp] theorem regWrite_oscDivider (v : Byte) (r : Sfr) : (regWrite s v r).oscDivider = s.oscDivider := by cases r <;> rfl
@[simp] theorem regWrite_program (v : Byte) (r : Sfr) : (regWrite s v r).program = s.program := by cases r <;> rfl
@[simp] theorem regWrite_eeprom (v : Byte) (r : Sfr) : (regWrite s v r).eeprom = s.eeprom := by cases r <;> rfl
@[simp] theorem regWrite_pins (v : Byte) (r : Sfr) : (regWrite s v r).pins = s.pins := by cases r <;> rfl
@[simp] theorem regWrite_seen (v : Byte) (r : Sfr) : (regWrite s v r).seen = s.seen := by cases r <;> rfl
@[simp] theorem regWrite_script (v : Byte) (r : Sfr) : (regWrite s v r).script = s.script := by cases r <;> rfl
@[simp] theorem regWrite_draws (v : Byte) (r : Sfr) : (regWrite s v r).draws = s.draws := by cases r <;> rfl
@[simp] theorem regWrite_stack (v : Byte) (r : Sfr) : (regWrite s v r).stack = s.stack := by cases r <;> rfl
@[simp] theorem regWrite_tblh (v : Byte) (r : Sfr) : (regWrite s v r).tblh = s.tblh := by cases r <;> rfl
@[simp] theorem regWrite_ram (v : Byte) (r : Sfr) : (regWrite s v r).ram = s.ram := by cases r <;> rfl
@[simp] theorem regWrite_pdf (v : Byte) (r : Sfr) : (regWrite s v r).status.pdf = s.status.pdf := by cases r <;> rfl
@[simp] theorem regWrite_timeOut (v : Byte) (r : Sfr) : (regWrite s v r).status.timeOut = s.status.timeOut := by cases r <;> rfl

@[simp] theorem memWrite_cfg (m : DAddr) (v : Byte) : (memWrite s m v).cfg = s.cfg := by unfold memWrite; split <;> simp
@[simp] theorem memWrite_mode (m : DAddr) (v : Byte) : (memWrite s m v).mode = s.mode := by unfold memWrite; split <;> simp
@[simp] theorem memWrite_wdt (m : DAddr) (v : Byte) : (memWrite s m v).wdt = s.wdt := by unfold memWrite; split <;> simp
@[simp] theorem memWrite_pfd (m : DAddr) (v : Byte) : (memWrite s m v).pfd = s.pfd := by unfold memWrite; split <;> simp
@[simp] theorem memWrite_oscDivider (m : DAddr) (v : Byte) : (memWrite s m v).oscDivider = s.oscDivider := by unfold memWrite; split <;> simp
@[simp] theorem memWrite_program (m : DAddr) (v : Byte) : (memWrite s m v).program = s.program := by unfold memWrite; split <;> simp
@[simp] theorem memWrite_eeprom (m : DAddr) (v : Byte) : (memWrite s m v).eeprom = s.eeprom := by unfold memWrite; split <;> simp
@[simp] theorem memWrite_pins (m : DAddr) (v : Byte) : (memWrite s m v).pins = s.pins := by unfold memWrite; split <;> simp
@[simp] theorem memWrite_seen (m : DAddr) (v : Byte) : (memWrite s m v).seen = s.seen := by unfold memWrite; split <;> simp
@[simp] theorem memWrite_script (m : DAddr) (v : Byte) : (memWrite s m v).script = s.script := by unfold memWrite; split <;> simp
@[simp] theorem memWrite_draws (m : DAddr) (v : Byte) : (memWrite s m v).draws = s.draws := by unfold memWrite; split <;> simp
@[simp] theorem memWrite_stack (m : DAddr) (v : Byte) : (memWrite s m v).stack = s.stack := by unfold memWrite; split <;> simp
@[simp] theorem memWrite_tblh (m : DAddr) (v : Byte) : (memWrite s m v).tblh = s.tblh := by unfold memWrite; split <;> simp
@[simp] theorem memWrite_pdf (m : DAddr) (v : Byte) : (memWrite s m v).status.pdf = s.status.pdf := by unfold memWrite; split <;> simp
@[simp] theorem memWrite_timeOut (m : DAddr) (v : Byte) : (memWrite s m v).status.timeOut = s.status.timeOut := by unfold memWrite; split <;> simp

@[simp] theorem afterRead_cfg (m : DAddr) : (afterRead s m).cfg = s.cfg := by rw [afterRead_eq]; rfl
@[simp] theorem afterRead_mode (m : DAddr) : (afterRead s m).mode = s.mode := by rw [afterRead_eq]; rfl
@[simp] theorem afterRead_wdt (m : DAddr) : (afterRead s m).wdt = s.wdt := by rw [afterRead_eq]; rfl
@[simp] theorem afterRead_pfd (m : DAddr) : (afterRead s m).pfd = s.pfd := by rw [afterRead_eq]; rfl
@[simp] theorem afterRead_oscDivider (m : DAddr) : (afterRead s m).oscDivider = s.oscDivider := by rw [afterRead_eq]; rfl
@[simp] theorem afterRead_program (m : DAddr) : (afterRead s m).program = s.program := by rw [afterRead_eq]; rfl
@[simp] theorem afterRead_eeprom (m : DAddr) : (afterRead s m).eeprom = s.eeprom := by rw [afterRead_eq]; rfl
@[simp] theorem afterRead_pins (m : DAddr) : (afterRead s m).pins = s.pins := by rw [afterRead_eq]; rfl
@[simp] theorem afterRead_seen (m : DAddr) : (afterRead s m).seen = s.seen := by rw [afterRead_eq]; rfl
@[simp] theorem afterRead_script (m : DAddr) : (afterRead s m).script = s.script := by rw [afterRead_eq]; rfl
@[simp] theorem afterRead_draws (m : DAddr) : (afterRead s m).draws = s.draws := by rw [afterRead_eq]; rfl
@[simp] theorem afterRead_stack (m : DAddr) : (afterRead s m).stack = s.stack := by rw [afterRead_eq]; rfl
@[simp] theorem afterRead_tblh (m : DAddr) : (afterRead s m).tblh = s.tblh := by rw [afterRead_eq]; rfl
@[simp] theorem afterRead_ram (m : DAddr) : (afterRead s m).ram = s.ram := by rw [afterRead_eq]; rfl
@[simp] theorem afterRead_acc (m : DAddr) : (afterRead s m).acc = s.acc := by rw [afterRead_eq]; rfl
@[simp] theorem afterRead_pc (m : DAddr) : (afterRead s m).pc = s.pc := by rw [afterRead_eq]; rfl
@[simp] theorem afterRead_mp (m : DAddr) : (afterRead s m).mp = s.mp := by rw [afterRead_eq]; rfl
@[simp] theorem afterRead_tblp (m : DAddr) : (afterRead s m).tblp = s.tblp := by rw [afterRead_eq]; rfl
@[simp] theorem afterRead_wdts (m : DAddr) : (afterRead s m).wdts = s.wdts := by rw [afterRead_eq]; rfl
@[simp] theorem afterRead_status (m : DAddr) : (afterRead s m).status = s.status := by rw [afterRead_eq]; rfl
@[simp] theorem afterRead_intc (m : DAddr) : (afterRead s m).intc = s.intc := by rw [afterRead_eq]; rfl
@[simp] theorem afterRead_tmr0 (m : DAddr) : (afterRead s m).tmr0 = s.tmr0 := by rw [afterRead_eq]; rfl
@[simp] theorem afterRead_ports (m : DAddr) : (afterRead s m).ports = s.ports := by rw [afterRead_eq]; rfl
@[simp] theorem afterRead_analog (m : DAddr) : (afterRead s m).analog = s.analog := by rw [afterRead_eq]; rfl
@[simp] theorem afterRead_cycles (m : DAddr) : (afterRead s m).cycles = s.cycles := by rw [afterRead_eq]; rfl
@[simp] theorem afterRead_pulse (m : DAddr) : (afterRead s m).tmr1.pulse = s.tmr1.pulse := by rw [afterRead_eq]; rfl
@[simp] theorem afterRead_on (m : DAddr) : (afterRead s m).tmr1.on = s.tmr1.on := by rw [afterRead_eq]; rfl
@[simp] theorem afterRead_t1mode (m : DAddr) : (afterRead s m).tmr1.mode = s.tmr1.mode := by rw [afterRead_eq]; rfl

@[simp] theorem resultToMem_cfg (m : DAddr) (o : AluOut) : (resultToMem s m o).cfg = s.cfg := by
  unfold resultToMem; split <;> simp [freeStatus, FlagUpdate.apply]
@[simp] theorem resultToMem_mode (m : DAddr) (o : AluOut) : (resultToMem s m o).mode = s.mode := by
  unfold resultToMem; split <;> simp [freeStatus, FlagUpdate.apply]
@[simp] theorem resultToMem_wdt (m : DAddr) (o : AluOut) : (resultToMem s m o).wdt = s.wdt := by
  unfold resultToMem; split <;> simp [freeStatus, FlagUpdate.apply]
@[simp] theorem resultToMem_pfd (m : DAddr) (o : AluOut) : (resultToMem s m o).pfd = s.pfd := by
  unfold resultToMem; split <;> simp [freeStatus, FlagUpdate.apply]
@[simp] theorem resultToMem_oscDivider (m : DAddr) (o : AluOut) : (resultToMem s m o).oscDivider = s.oscDivider := by
  unfold resultToMem; split <;> simp [freeStatus, FlagUpdate.apply]
@[simp] theorem resultToMem_program (m : DAddr) (o : AluOut) : (resultToMem s m o).program = s.program := by
  unfold resultToMem; split <;> simp [freeStatus, FlagUpdate.apply]
@[simp] theorem resultToMem_eeprom (m : DAddr) (o : AluOut) : (resultToMem s m o).eeprom = s.eeprom := by
  unfold resultToMem; split <;> simp [freeStatus, FlagUpdate.apply]
@[simp] theorem resultToMem_pins (m : DAddr) (o : AluOut) : (resultToMem s m o).pins = s.pins := by
  unfold resultToMem; split <;> simp [freeStatus, FlagUpdate.apply]
@[simp] theorem resultToMem_seen (m : DAddr) (o : AluOut) : (resultToMem s m o).seen = s.seen := by
  unfold resultToMem; split <;> simp [freeStatus, FlagUpdate.apply]
@[simp] theorem resultToMem_script (m : DAddr) (o : AluOut) : (resultToMem s m o).script = s.script := by
  unfold resultToMem; split <;> simp [freeStatus, FlagUpdate.apply]
@[simp] theorem resultToMem_draws (m : DAddr) (o : AluOut) : (resultToMem s m o).draws = s.draws := by
  unfold resultToMem; split <;> simp [freeStatus, FlagUpdate.apply]
@[simp] theorem resultToMem_stack (m : DAddr) (o : AluOut) : (resultToMem s m o).stack = s.stack := by
  unfold resultToMem; split <;> simp [freeStatus, FlagUpdate.apply]
@[simp] theorem resultToMem_tblh (m : DAddr) (o : AluOut) : (resultToMem s m o).tblh = s.tblh := by
  unfold resultToMem; split <;> simp [freeStatus, FlagUpdate.apply]
@[simp] theorem resultToMem_pdf (m : DAddr) (o : AluOut) : (resultToMem s m o).status.pdf = s.status.pdf := by
  unfold resultToMem; split <;> simp [freeStatus, FlagUpdate.apply]
@[simp] theorem resultToMem_timeOut (m : DAddr) (o : AluOut) : (resultToMem s m o).status.timeOut = s.status.timeOut := by
  unfold resultToMem; split <;> simp [freeStatus, FlagUpdate.apply]

@[simp] theorem resultToAcc_cfg (o : AluOut) : (resultToAcc s o).cfg = s.cfg := rfl
@[simp] theorem resultToAcc_mode (o : AluOut) : (resultToAcc s o).mode = s.mode := rfl
@[simp] theorem resultToAcc_wdt (o : AluOut) : (resultToAcc s o).wdt = s.wdt := rfl
@[simp] theorem resultToAcc_pfd (o : AluOut) : (resultToAcc s o).pfd = s.pfd := rfl
@[simp] theorem resultToAcc_oscDivider (o : AluOut) : (resultToAcc s o).oscDivider = s.oscDivider := rfl
@[simp] theorem resultToAcc_program (o : AluOut) : (resultToAcc s o).program = s.program := rfl
@[simp] theorem resultToAcc_eeprom (o : AluOut) : (resultToAcc s o).eeprom = s.eeprom := rfl
@[simp] theorem resultToAcc_pins (o : AluOut) : (resultToAcc s o).pins = s.pins := rfl
@[simp] theorem resultToAcc_seen (o : AluOut) : (resultToAcc s o).seen = s.seen := rfl
@[simp] theorem resultToAcc_script (o : AluOut) : (resultToAcc s o).script = s.script := rfl
@[simp] theorem resultToAcc_draws (o : AluOut) : (resultToAcc s o).draws = s.draws := rfl
@[simp] theorem resultToAcc_stack (o : AluOut) : (resultToAcc s o).stack = s.stack := rfl
@[simp] theorem resultToAcc_tblh (o : AluOut) : (resultToAcc s o).tblh = s.tblh := rfl
@[simp] theorem resultToAcc_pdf (o : AluOut) : (resultToAcc s o).status.pdf = s.status.pdf := rfl
@[simp] theorem resultToAcc_timeOut (o : AluOut) : (resultToAcc s o).status.timeOut = s.status.timeOut := rfl
@[simp] theorem resultToAcc_ram (o : AluOut) : (resultToAcc s o).ram = s.ram := rfl
@[simp] theorem resultToAcc_pc (o : AluOut) : (resultToAcc s o).pc = s.pc := rfl
@[simp] theorem resultToAcc_mp (o : AluOut) : (resultToAcc s o).mp = s.mp := rfl
@[simp] theorem resultToAcc_tblp (o : AluOut) : (resultToAcc s o).tblp = s.tblp := rfl
@[simp] theorem resultToAcc_wdts (o : AluOut) : (resultToAcc s o).wdts = s.wdts := rfl
@[simp] theorem resultToAcc_intc (o : AluOut) : (resultToAcc s o).intc = s.intc := rfl
@[simp] theorem resultToAcc_tmr0 (o : AluOut) : (resultToAcc s o).tmr0 = s.tmr0 := rfl
@[simp] theorem resultToAcc_tmr1 (o : AluOut) : (resultToAcc s o).tmr1 = s.tmr1 := rfl
@[simp] theorem resultToAcc_ports (o : AluOut) : (resultToAcc s o).ports = s.ports := rfl
@[simp] theorem resultToAcc_analog (o : AluOut) : (resultToAcc s o).analog = s.analog := rfl
@[simp] theorem resultToAcc_cycles (o : AluOut) : (resultToAcc s o).cycles = s.cycles := rfl

/-! ## Effective addresses do not depend on what an instruction changes before it uses them -/

@[simp] theorem effAddr_withAcc (v : Byte) (m : DAddr) : effAddr (s.withAcc v) m = effAddr s m := rfl
@[simp] theorem effAddr_withPc (v : PAddr) (m : DAddr) : effAddr (s.withPc v) m = effAddr s m := rfl
@[simp] theorem effAddr_withStack (v : List PAddr) (m : DAddr) : effAddr (s.withStack v) m = effAddr s m := rfl
@[simp] theorem effAddr_withStatus (v : Status) (m : DAddr) : effAddr (s.withStatus v) m = effAddr s m := rfl
@[simp] theorem effAddr_withIntc (v : Interrupts) (m : DAddr) : effAddr (s.withIntc v) m = effAddr s m := rfl
@[simp] theorem effAddr_withTmr0 (v : Timer0) (m : DAddr) : effAddr (s.withTmr0 v) m = effAddr s m := rfl
@[simp] theorem effAddr_withTmr1 (v : Timer1) (m : DAddr) : effAddr (s.withTmr1 v) m = effAddr s m := rfl
@[simp] theorem effAddr_withRam (v : Memory 8) (m : DAddr) : effAddr (s.withRam v) m = effAddr s m := rfl
@[simp] theorem effAddr_withTblh (v : BitVec 7) (m : DAddr) : effAddr (s.withTblh v) m = effAddr s m := rfl
@[simp] theorem effAddr_withCycles (v : Nat) (m : DAddr) : effAddr (s.withCycles v) m = effAddr s m := rfl
@[simp] theorem effAddr_withDraws (v : Nat) (m : DAddr) : effAddr (s.withDraws v) m = effAddr s m := rfl
@[simp] theorem target_withAcc (v : Byte) (m : DAddr) : target (s.withAcc v) m = target s m := rfl
@[simp] theorem target_withPc (v : PAddr) (m : DAddr) : target (s.withPc v) m = target s m := rfl
@[simp] theorem target_withStack (v : List PAddr) (m : DAddr) : target (s.withStack v) m = target s m := rfl
@[simp] theorem target_withStatus (v : Status) (m : DAddr) : target (s.withStatus v) m = target s m := rfl
@[simp] theorem target_withIntc (v : Interrupts) (m : DAddr) : target (s.withIntc v) m = target s m := rfl
@[simp] theorem target_withTmr0 (v : Timer0) (m : DAddr) : target (s.withTmr0 v) m = target s m := rfl
@[simp] theorem target_withTmr1 (v : Timer1) (m : DAddr) : target (s.withTmr1 v) m = target s m := rfl
@[simp] theorem target_withRam (v : Memory 8) (m : DAddr) : target (s.withRam v) m = target s m := rfl
@[simp] theorem target_withTblh (v : BitVec 7) (m : DAddr) : target (s.withTblh v) m = target s m := rfl
@[simp] theorem target_withCycles (v : Nat) (m : DAddr) : target (s.withCycles v) m = target s m := rfl
@[simp] theorem target_withDraws (v : Nat) (m : DAddr) : target (s.withDraws v) m = target s m := rfl
@[simp] theorem effAddr_afterRead (m n : DAddr) : effAddr (afterRead s m) n = effAddr s n := by
  rw [afterRead_eq]; rfl
@[simp] theorem target_afterRead (m n : DAddr) : target (afterRead s m) n = target s n := by
  rw [afterRead_eq]; rfl

/-! ## Results that write no flag -/

@[simp] theorem apply_unflagged (v : Byte) (f : Status) : (unflagged v).flags.apply f = f := rfl
@[simp] theorem unflagged_value (v : Byte) : (unflagged v).value = v := rfl
@[simp] theorem unflagged_writes (v : Byte) : (unflagged v).flags.writes = false := rfl
@[simp] theorem resultToAcc_unflagged (v : Byte) : resultToAcc s (unflagged v) = s.withAcc v := rfl
@[simp] theorem resultToMem_unflagged (m : DAddr) (v : Byte) : resultToMem s m (unflagged v) = memWrite s m v := by
  simp [resultToMem]

/-- A result with flags, stored anywhere but in STATUS (R130). -/
theorem resultToMem_of_ne (m : DAddr) (o : AluOut) (h : target s m ≠ .reg .status) :
    resultToMem s m o = (memWrite s m o.value).withStatus (o.flags.apply (memWrite s m o.value).status) := by
  simp [resultToMem, h]

/-- A write anywhere but in STATUS leaves the flags. -/
theorem memWrite_status_of_ne (m : DAddr) (v : Byte) (h : target s m ≠ .reg .status) :
    (memWrite s m v).status = s.status := by
  rcases memWrite_cases s m v with ⟨r, hr, e⟩ | ⟨-, e⟩ | ⟨-, e⟩ <;> rw [e]
  · cases r <;> first | rfl | exact absurd hr h
  · rfl

/-- A write of RAM or a register keeps RAM canonical and inside its range (R35, R36). -/
theorem memWrite_ram_ok (m : DAddr) (v : Byte) (hf : Memory.wf 128 s.ram = true)
    (hb : ∀ p ∈ s.ram, s.cfg.gprBase.toNat ≤ p.1) :
    Memory.wf 128 (memWrite s m v).ram = true ∧ ∀ p ∈ (memWrite s m v).ram, s.cfg.gprBase.toNat ≤ p.1 := by
  rcases memWrite_cases s m v with ⟨r, -, h⟩ | ⟨ht, h⟩ | ⟨-, h⟩
  · rw [h, regWrite_ram]; exact ⟨hf, hb⟩
  · rw [h, State.withRam_ram]
    refine ⟨Memory.write_wf hf (effAddr s m).isLt v, fun p hp => ?_⟩
    rcases Memory.mem_write hp with hp | hp
    · exact hb p hp
    · rw [hp]
      exact BitVec.le_def.mp (base_le_of_ram ht)
  · rw [h]; exact ⟨hf, hb⟩

/-- A register write keeps "a pulse is under measurement only while on and in pulse width mode" of Timer 0 (R349). -/
theorem regWrite_pulse0 (v : Byte) (r : Sfr) (h : s.tmr0.pulse ≠ .idle → s.tmr0.on = true ∧ s.tmr0.mode = q) :
    (regWrite s v r).tmr0.pulse ≠ .idle → (regWrite s v r).tmr0.on = true ∧ (regWrite s v r).tmr0.mode = q := by
  cases r <;> first | exact h | skip
  intro hm
  simp only [regWrite, State.withTmr0_tmr0, tmr0cWritten, ne_eq, ite_eq_right_iff, Classical.not_imp, Bool.and_eq_true,
    beq_iff_eq] at hm ⊢
  exact ⟨hm.1.1.2, hm.1.2.trans (h hm.2).2⟩

/-- A register write keeps "a pulse is under measurement only while on and in pulse width mode" of Timer 1 (R354). -/
theorem regWrite_pulse1 (v : Byte) (r : Sfr) (h : s.tmr1.pulse ≠ .idle → s.tmr1.on = true ∧ s.tmr1.mode = q) :
    (regWrite s v r).tmr1.pulse ≠ .idle → (regWrite s v r).tmr1.on = true ∧ (regWrite s v r).tmr1.mode = q := by
  cases r <;> first | exact h | skip
  intro hm
  simp only [regWrite, State.withTmr1_tmr1, tmr1cWritten, ne_eq, ite_eq_right_iff, Classical.not_imp, Bool.and_eq_true,
    beq_iff_eq] at hm ⊢
  exact ⟨hm.1.1.2, hm.1.2.trans (h hm.2).2⟩

/-- A register write keeps "an event is unseen only while on and in event count mode" of Timer 0 (R436). -/
theorem regWrite_event0 (v : Byte) (r : Sfr) (h : s.tmr0.event = true → s.tmr0.on = true ∧ s.tmr0.mode = q) :
    (regWrite s v r).tmr0.event = true → (regWrite s v r).tmr0.on = true ∧ (regWrite s v r).tmr0.mode = q := by
  cases r <;> first | exact h | skip
  intro he
  simp only [regWrite, State.withTmr0_tmr0, tmr0cWritten, Bool.and_eq_true, beq_iff_eq] at he ⊢
  exact ⟨he.1.2, he.2.trans (h he.1.1.1).2⟩

/-- A register write keeps "an event is unseen only while on and in event count mode" of Timer 1 (R436). -/
theorem regWrite_event1 (v : Byte) (r : Sfr) (h : s.tmr1.event = true → s.tmr1.on = true ∧ s.tmr1.mode = q) :
    (regWrite s v r).tmr1.event = true → (regWrite s v r).tmr1.on = true ∧ (regWrite s v r).tmr1.mode = q := by
  cases r <;> first | exact h | skip
  intro he
  simp only [regWrite, State.withTmr1_tmr1, tmr1cWritten, Bool.and_eq_true, beq_iff_eq] at he ⊢
  exact ⟨he.1.2, he.2.trans (h he.1.1.1).2⟩

end Sys2Proof.Machine
end

