-- ==== Sys2Proof/Laws/Reset.lean ====
section
/-! SUPPORT. Laws of the resets: each field after each part of a reset (R79), the columns as a whole, and that RAM after a
power-on is canonical. -/

namespace Sys2Proof.Machine
variable (s : State)

@[simp] theorem resetCommon_cfg (k : ResetKind) : (resetCommon k s).cfg = s.cfg := rfl
@[simp] theorem resetCommon_mode (k : ResetKind) : (resetCommon k s).mode = .running := rfl
@[simp] theorem resetCommon_acc (k : ResetKind) : (resetCommon k s).acc = s.acc := rfl
@[simp] theorem resetCommon_pc (k : ResetKind) : (resetCommon k s).pc = 0x000#11 := rfl
@[simp] theorem resetCommon_stack (k : ResetKind) : (resetCommon k s).stack = [] := rfl
@[simp] theorem resetCommon_mp (k : ResetKind) : (resetCommon k s).mp = s.mp := rfl
@[simp] theorem resetCommon_tblp (k : ResetKind) : (resetCommon k s).tblp = s.tblp := rfl
@[simp] theorem resetCommon_tblh (k : ResetKind) : (resetCommon k s).tblh = s.tblh := rfl
@[simp] theorem resetCommon_wdts (k : ResetKind) : (resetCommon k s).wdts = s.wdts := rfl
@[simp] theorem resetCommon_status (k : ResetKind) : (resetCommon k s).status = statusAfterReset k s.draws s.status := rfl
@[simp] theorem resetCommon_intc (k : ResetKind) : (resetCommon k s).intc = s.intc := rfl
@[simp] theorem resetCommon_tmr0 (k : ResetKind) : (resetCommon k s).tmr0 = s.tmr0 := rfl
@[simp] theorem resetCommon_tmr1 (k : ResetKind) : (resetCommon k s).tmr1 = s.tmr1 := rfl
@[simp] theorem resetCommon_wdt (k : ResetKind) : (resetCommon k s).wdt = { count := 0, prescaler := 0, last := freeWdtLast s.draws } := rfl
@[simp] theorem resetCommon_ports (k : ResetKind) : (resetCommon k s).ports = s.ports := rfl
@[simp] theorem resetCommon_analog (k : ResetKind) : (resetCommon k s).analog = s.analog := rfl
@[simp] theorem resetCommon_pfd (k : ResetKind) : (resetCommon k s).pfd = (Config.freeReset s.draws 8).getLsbD 0 := rfl
@[simp] theorem resetCommon_oscDivider (k : ResetKind) : (resetCommon k s).oscDivider = s.oscDivider := rfl
@[simp] theorem resetCommon_ram (k : ResetKind) : (resetCommon k s).ram = s.ram := rfl
@[simp] theorem resetCommon_program (k : ResetKind) : (resetCommon k s).program = s.program := rfl
@[simp] theorem resetCommon_eeprom (k : ResetKind) : (resetCommon k s).eeprom = s.eeprom := rfl
@[simp] theorem resetCommon_pins (k : ResetKind) : (resetCommon k s).pins = s.pins := rfl
@[simp] theorem resetCommon_seen (k : ResetKind) : (resetCommon k s).seen = s.seen := rfl
@[simp] theorem resetCommon_script (k : ResetKind) : (resetCommon k s).script = s.script := rfl
@[simp] theorem resetCommon_cycles (k : ResetKind) : (resetCommon k s).cycles = s.cycles := rfl
@[simp] theorem resetCommon_draws (k : ResetKind) : (resetCommon k s).draws = s.draws + 1 := rfl

@[simp] theorem resetPlatform_cfg : (resetPlatform s).cfg = s.cfg := rfl
@[simp] theorem resetPlatform_mode : (resetPlatform s).mode = s.mode := rfl
@[simp] theorem resetPlatform_acc : (resetPlatform s).acc = s.acc := rfl
@[simp] theorem resetPlatform_pc : (resetPlatform s).pc = s.pc := rfl
@[simp] theorem resetPlatform_stack : (resetPlatform s).stack = s.stack := rfl
@[simp] theorem resetPlatform_mp : (resetPlatform s).mp = s.mp := rfl
@[simp] theorem resetPlatform_tblp : (resetPlatform s).tblp = s.tblp := rfl
@[simp] theorem resetPlatform_tblh : (resetPlatform s).tblh = s.tblh := rfl
@[simp] theorem resetPlatform_wdts : (resetPlatform s).wdts = 0x07#8 := rfl
@[simp] theorem resetPlatform_status : (resetPlatform s).status = s.status := rfl
@[simp] theorem resetPlatform_intc : (resetPlatform s).intc = 
    { emi := false, eei := false, et0i := false, et1i := false, eif := false, t0f := false, t1f := false,
      eci := false, cf := false } := rfl
@[simp] theorem resetPlatform_wdt : (resetPlatform s).wdt = s.wdt := rfl
@[simp] theorem resetPlatform_ports : (resetPlatform s).ports = { pa := 0xFF#8, pac := 0xFF#8, pb := 0xFF#8, pbc := 0xFF#8 } := rfl
@[simp] theorem resetPlatform_analog : (resetPlatform s).analog = 
    { misc := 0x80#8, opac1 := 0x00#8, opac2 := 0x00#8, opac3 := 0x00#8, cmpc := 0x00#8 } := rfl
@[simp] theorem resetPlatform_pfd : (resetPlatform s).pfd = s.pfd := rfl
@[simp] theorem resetPlatform_ram : (resetPlatform s).ram = s.ram := rfl
@[simp] theorem resetPlatform_program : (resetPlatform s).program = s.program := rfl
@[simp] theorem resetPlatform_eeprom : (resetPlatform s).eeprom = s.eeprom := rfl
@[simp] theorem resetPlatform_pins : (resetPlatform s).pins = s.pins := rfl
@[simp] theorem resetPlatform_script : (resetPlatform s).script = s.script := rfl
@[simp] theorem resetPlatform_cycles : (resetPlatform s).cycles = s.cycles := rfl
@[simp] theorem resetPlatform_draws : (resetPlatform s).draws = s.draws + 1 := rfl
@[simp] theorem resetPlatform_tmr0_mode : (resetPlatform s).tmr0.mode = 0b00#2 := rfl
@[simp] theorem resetPlatform_tmr0_on : (resetPlatform s).tmr0.on = false := rfl
@[simp] theorem resetPlatform_tmr0_edge : (resetPlatform s).tmr0.edge = false := rfl
@[simp] theorem resetPlatform_tmr0_psc : (resetPlatform s).tmr0.psc = 0b100#3 := rfl
@[simp] theorem resetPlatform_tmr0_prescaler : (resetPlatform s).tmr0.prescaler = 0 := rfl
@[simp] theorem resetPlatform_tmr0_pulse : (resetPlatform s).tmr0.pulse = .idle := rfl
@[simp] theorem resetPlatform_tmr0_event : (resetPlatform s).tmr0.event = false := rfl
@[simp] theorem resetPlatform_tmr1_mode : (resetPlatform s).tmr1.mode = 0b00#2 := rfl
@[simp] theorem resetPlatform_tmr1_on : (resetPlatform s).tmr1.on = false := rfl
@[simp] theorem resetPlatform_tmr1_edge : (resetPlatform s).tmr1.edge = true := rfl
@[simp] theorem resetPlatform_tmr1_pulse : (resetPlatform s).tmr1.pulse = .idle := rfl
@[simp] theorem resetPlatform_tmr1_event : (resetPlatform s).tmr1.event = false := rfl

@[simp] theorem resetContents_cfg : (resetContents s).cfg = s.cfg := rfl
@[simp] theorem resetContents_mode : (resetContents s).mode = s.mode := rfl
@[simp] theorem resetContents_pc : (resetContents s).pc = s.pc := rfl
@[simp] theorem resetContents_stack : (resetContents s).stack = s.stack := rfl
@[simp] theorem resetContents_wdts : (resetContents s).wdts = s.wdts := rfl
@[simp] theorem resetContents_status : (resetContents s).status = s.status := rfl
@[simp] theorem resetContents_intc : (resetContents s).intc = s.intc := rfl
@[simp] theorem resetContents_tmr0 : (resetContents s).tmr0 = s.tmr0 := rfl
@[simp] theorem resetContents_tmr1 : (resetContents s).tmr1 = s.tmr1 := rfl
@[simp] theorem resetContents_wdt : (resetContents s).wdt = s.wdt := rfl
@[simp] theorem resetContents_ports : (resetContents s).ports = s.ports := rfl
@[simp] theorem resetContents_analog : (resetContents s).analog = s.analog := rfl
@[simp] theorem resetContents_pfd : (resetContents s).pfd = s.pfd := rfl
@[simp] theorem resetContents_oscDivider : (resetContents s).oscDivider = s.oscDivider := rfl
@[simp] theorem resetContents_ram : (resetContents s).ram = freeRamContents s.draws s.cfg.gprBase.toNat := by
  simp only [resetContents]
@[simp] theorem resetContents_program : (resetContents s).program = s.program := rfl
@[simp] theorem resetContents_eeprom : (resetContents s).eeprom = eepromPowerUp s.draws s.eeprom := rfl
@[simp] theorem resetContents_pins : (resetContents s).pins = s.pins := rfl
@[simp] theorem resetContents_seen : (resetContents s).seen = s.seen := rfl
@[simp] theorem resetContents_script : (resetContents s).script = s.script := rfl
@[simp] theorem resetContents_cycles : (resetContents s).cycles = s.cycles := rfl
@[simp] theorem resetContents_draws : (resetContents s).draws = s.draws + 1 := rfl

/-- Each column of R79 as its parts. -/
theorem applyReset_powerOn : applyReset .powerOn s = resetContents (resetPlatform (resetCommon .powerOn s)) := rfl
theorem applyReset_wdtRunning : applyReset .wdtRunning s = resetPlatform (resetCommon .wdtRunning s) := rfl
theorem applyReset_resRunning : applyReset .resRunning s = resetPlatform (resetCommon .resRunning s) := rfl
theorem applyReset_resHalted : applyReset .resHalted s = resetPlatform (resetCommon .resHalted s) := rfl
theorem applyReset_wdtHalted : applyReset .wdtHalted s =
    (resetCommon .wdtHalted s).withTmr0 { s.tmr0 with prescaler := Config.freePhase s.draws } := rfl

/-- RAM after a power-on is canonical and holds nothing below GPR_BASE. -/
theorem freeRamContents_ok (d base : Nat) :
    Memory.wf 128 (freeRamContents d base) = true ∧ ∀ p ∈ freeRamContents d base, base ≤ p.1 := by
  suffices h : ∀ (l : List Nat) (m : Memory 8), (∀ a ∈ l, a < 128) → Memory.wf 128 m = true → (∀ p ∈ m, base ≤ p.1) →
      let r := l.foldl (fun m a => if base ≤ a then Memory.write m a (Config.freeRam d a) else m) m
      Memory.wf 128 r = true ∧ ∀ p ∈ r, base ≤ p.1 from h _ _ (by simp) rfl (by simp)
  intro l
  induction l with
  | nil => exact fun m _ h h' => ⟨h, h'⟩
  | cons a l ih =>
    intro m hl h h'
    refine ih _ (fun x hx => hl x (by simp [hx])) ?_ ?_
    · dsimp only
      split
      · exact Memory.write_wf h (hl a (by simp)) _
      · exact h
    · dsimp only
      split
      · rename_i hb
        intro p hp
        rcases Memory.mem_write hp with hp | hp
        · exact h' p hp
        · rw [hp]; exact hb
      · exact h'

end Sys2Proof.Machine
end

