-- ==== Sys2Proof/Laws/Agents.lean ====
section
/-! SUPPORT. Laws of the agents: what one action of an agent can do, and the one induction over an agents' run. -/

namespace Sys2Proof.Machine
variable (s : State)

/-! ## What one action can change -/

/-- A request changes the request flag and, at most, the core's mode to running (R394). -/
theorem requestInterrupt_cases (k : IrqSource) :
    requestInterrupt k s = s.withIntc (s.intc.setFlag true k) ∨
    requestInterrupt k s = (s.withIntc (s.intc.setFlag true k)).withMode .running := by
  unfold requestInterrupt
  split
  · exact .inl rfl
  · exact .inr rfl

/-- A count clock of Timer 0 (R343): the next count, or at FFH the preload, a request and the PFD's clock. -/
theorem countTimer0_cases :
    (s.tmr0.counter ≠ 0xFF#8 ∧ countTimer0 s = s.withTmr0 { s.tmr0 with counter := s.tmr0.counter + 1 }) ∨
    (s.tmr0.counter = 0xFF#8 ∧ countTimer0 s =
      requestInterrupt .timer0 (clockPfd .timer0 (s.withTmr0 { s.tmr0 with counter := s.tmr0.preload }))) := by
  by_cases h : s.tmr0.counter = 0xFF#8
  · exact .inr ⟨h, by simp [countTimer0, h]⟩
  · exact .inl ⟨h, by simp [countTimer0, h]⟩

/-- A count clock of Timer 1 (R343). -/
theorem countTimer1_cases :
    (s.tmr1.counter ≠ 0xFFFF#16 ∧ countTimer1 s = s.withTmr1 { s.tmr1 with counter := s.tmr1.counter + 1 }) ∨
    (s.tmr1.counter = 0xFFFF#16 ∧ countTimer1 s =
      requestInterrupt .timer1 (clockPfd .timer1 (s.withTmr1 { s.tmr1 with counter := s.tmr1.preload }))) := by
  by_cases h : s.tmr1.counter = 0xFFFF#16
  · exact .inr ⟨h, by simp [countTimer1, h]⟩
  · exact .inl ⟨h, by simp [countTimer1, h]⟩

/-- A timer clock of Timer 0 sees an event and counts it, or does nothing in event count mode (R436). -/
theorem seeEvent0_cases :
    seeEvent0 s = s ∨
    (s.tmr0.event = true ∧ seeEvent0 s = countTimer0 (s.withTmr0 { s.tmr0 with event := false })) := by
  unfold seeEvent0
  split
  · rename_i h; simp only [Bool.and_eq_true] at h; exact .inr ⟨h.2, rfl⟩
  · exact .inl rfl

/-- A timer clock of Timer 1 sees an event and counts it, or does nothing in event count mode (R436). -/
theorem seeEvent1_cases :
    seeEvent1 s = s ∨
    (s.tmr1.event = true ∧ seeEvent1 s = countTimer1 (s.withTmr1 { s.tmr1 with event := false })) := by
  unfold seeEvent1
  split
  · rename_i h; simp only [Bool.and_eq_true] at h; exact .inr ⟨h.2, rfl⟩
  · exact .inl rfl

/-- A transition of pin TMR0 is an event, moves the measurement on, or does nothing (R347, R349). -/
theorem transitionTimer0_cases (c b : Bool) :
    transitionTimer0 c b s = s ∨
    (s.tmr0.on = true ∧ s.tmr0.mode = modeEventCount ∧ transitionTimer0 c b s = eventTimer0 c s) ∨
    (s.tmr0.on = true ∧ s.tmr0.mode = modePulseWidth ∧
      transitionTimer0 c b s = s.withTmr0 { s.tmr0 with pulse := s.tmr0.pulse.onEdge (b == s.tmr0.edge) }) := by
  unfold transitionTimer0
  dsimp only
  split
  · exact .inl rfl
  · rename_i hon
    split
    · rename_i hm
      split
      · exact .inr (.inl ⟨by simpa using hon, hm, rfl⟩)
      · exact .inl rfl
    · split
      · rename_i hm
        exact .inr (.inr ⟨by simpa using hon, hm, rfl⟩)
      · exact .inl rfl

/-- A transition of pin TMR1 is an event, moves the measurement on, or does nothing (R354). -/
theorem transitionTimer1_cases (c b : Bool) :
    transitionTimer1 c b s = s ∨
    (s.tmr1.on = true ∧ s.tmr1.mode = modeEventCount ∧ transitionTimer1 c b s = eventTimer1 c s) ∨
    (s.tmr1.on = true ∧ s.tmr1.mode = modePulseWidth ∧
      transitionTimer1 c b s = s.withTmr1 { s.tmr1 with pulse := s.tmr1.pulse.onEdge (b == s.tmr1.edge) }) := by
  unfold transitionTimer1
  dsimp only
  split
  · exact .inl rfl
  · rename_i hon
    split
    · rename_i hm
      split
      · exact .inr (.inl ⟨by simpa using hon, hm, rfl⟩)
      · exact .inl rfl
    · split
      · rename_i hm
        exact .inr (.inr ⟨by simpa using hon, hm, rfl⟩)
      · exact .inl rfl

/-- After a timer clock a measurement is under way only in a timer that is on (R349). -/
theorem PulsePhase.next_staysOn (p : PulsePhase) (h : p.next ≠ .idle) : p.staysOn = true := by
  cases p <;> first | rfl | exact absurd rfl h

/-- A timer clock of Timer 0 (R341, R349): nothing, a count, or in pulse width mode the measurement's next phase with or
without a count. -/
theorem tickTimer0_cases :
    tickTimer0 s = s ∨ (s.tmr0.on = true ∧ s.tmr0.mode = modeTimer ∧ tickTimer0 s = countTimer0 s) ∨
    (s.tmr0.on = true ∧ s.tmr0.mode = modePulseWidth ∧
      ∃ t, t = s.withTmr0 { s.tmr0 with on := s.tmr0.pulse.staysOn, pulse := s.tmr0.pulse.next }
        ∧ tickTimer0 s = if s.tmr0.pulse.counts s.draws 0 = true then countTimer0 t else t) := by
  unfold tickTimer0
  split
  · exact .inl rfl
  · rename_i hon
    split
    · rename_i hm; exact .inr (.inl ⟨by simpa using hon, hm, rfl⟩)
    · split
      · rename_i hm; exact .inr (.inr ⟨by simpa using hon, hm, _, rfl, rfl⟩)
      · exact .inl rfl

/-- A timer clock of Timer 1 (R351, R354): nothing, a count, or in pulse width mode the measurement's next phase with or
without a count. -/
theorem tickTimer1_cases :
    tickTimer1 s = s ∨ (s.tmr1.on = true ∧ s.tmr1.mode = modeTimer ∧ tickTimer1 s = countTimer1 s) ∨
    (s.tmr1.on = true ∧ s.tmr1.mode = modePulseWidth ∧
      ∃ t, t = s.withTmr1 { s.tmr1 with on := s.tmr1.pulse.staysOn, pulse := s.tmr1.pulse.next }
        ∧ tickTimer1 s = if s.tmr1.pulse.counts s.draws 3 = true then countTimer1 t else t) := by
  unfold tickTimer1
  split
  · exact .inl rfl
  · rename_i hon
    split
    · rename_i hm; exact .inr (.inl ⟨by simpa using hon, hm, rfl⟩)
    · split
      · rename_i hm; exact .inr (.inr ⟨by simpa using hon, hm, _, rfl, rfl⟩)
      · exact .inl rfl

/-- A clock of the watchdog advances it or, with the watchdog enabled, makes a time-out (R362). -/
theorem clockWdt_cases :
    (∃ w, clockWdt s = s.withWdt w) ∨
    (s.cfg.opt.wdtEnabled = true ∧ ∃ w, clockWdt s = wdtReset (s.withWdt w)) := by
  unfold clockWdt
  split
  · exact .inl ⟨s.wdt, rfl⟩
  · rename_i he
    dsimp only
    split
    · split
      · exact .inr ⟨by simpa using he, _, rfl⟩
      · exact .inl ⟨_, rfl⟩
    · exact .inl ⟨_, rfl⟩

/-- The EEPROM's reaction changes the EEPROM and the draw alone. -/
theorem senseEeprom_eq : ∃ e d, senseEeprom s = (s.withEeprom e).withDraws d := by
  by_cases h : hasEeprom s = true
  · refine ⟨(senseEeprom s).eeprom, (senseEeprom s).draws, ?_⟩
    unfold senseEeprom
    rw [if_pos h]
    dsimp only
    generalize (sdaLine s != s.eeprom.seenSda || sclLine s != s.eeprom.seenScl) = b
    cases b <;> rfl
  · refine ⟨s.eeprom, s.draws, ?_⟩
    unfold senseEeprom
    rw [if_neg h]
    rfl

/-! ## The induction over an agents' run -/

/-- What a property must survive to survive every agents' run: each action of an agent. -/
structure AgentStable (P : State → Prop) : Prop where
  seen : ∀ s v, P s → P (s.withSeen v)
  pins : ∀ s v, P s → P (s.withPins v)
  script : ∀ s es rest, s.script = es :: rest → P s → P (s.withScript rest)
  draws : ∀ s v, P s → P (s.withDraws v)
  wake : ∀ s, P s → P (s.withMode .running)
  request : ∀ s k, P s → P (requestInterrupt k s)
  transition0 : ∀ s c b, P s → P (transitionTimer0 c b s)
  transition1 : ∀ s c b, P s → P (transitionTimer1 c b s)
  count0 : ∀ s, P s → P (countTimer0 s)
  oscillator : ∀ s v, P s → P (s.withOscDivider v)
  see0 : ∀ s, P s → P (seeEvent0 s)
  see1 : ∀ s, P s → P (seeEvent1 s)
  tick0 : ∀ s, P s → P (tickTimer0 s)
  tick1 : ∀ s, P s → P (tickTimer1 s)
  prescaler : ∀ s v, P s → P (s.withTmr0 { s.tmr0 with prescaler := v })
  watchdog : ∀ s, P s → P (clockWdt s)
  reset : ∀ s k, k ≠ ResetKind.wdtRunning → k ≠ ResetKind.wdtHalted → P s → P (applyReset k s)
  eeprom : ∀ s, P s → P (senseEeprom s)
  busy : ∀ s n, P s → P (s.withEeprom { s.eeprom with busy := n })

variable {P : State → Prop} {u : State}

theorem AgentStable.ite (b : Bool) {x y : State} (hx : P x) (hy : P y) : P (if b = true then x else y) := by
  split <;> assumption

theorem AgentStable.resReset (h : AgentStable P) (hs : P u) : P (resReset u) := by
  unfold Machine.resReset
  split <;> exact h.reset _ _ (by decide) (by decide) hs

theorem AgentStable.sense (h : AgentStable P) (hs : P u) : P (sense u) := by
  have hint : ∀ b u, P u → P (transitionInt b u) := fun b u hu => by
    unfold transitionInt; exact ite _ (h.request _ _ hu) hu
  have hcmp : ∀ b u, P u → P (transitionComparator b u) := fun b u hu => by
    unfold transitionComparator; exact ite _ (h.request _ _ hu) hu
  have hcnt : ∀ b u, P u → P (transitionCountSource b u) := fun b u hu => by
    unfold transitionCountSource; exact ite _ (h.count0 _ hu) hu
  have hwake : ∀ x y u, P u → P (wakeOnPa x y u) := fun x y u hu => by
    unfold wakeOnPa
    split
    · exact hu
    · exact h.wake _ hu
  unfold Machine.sense
  refine h.eeprom _ (hwake _ _ _ ?_)
  have h0 := h.seen u { pa := paLevel u, pb1 := getBit (pbLevel u) 1, cmp := u.pins.cmpOut, cnt := u.pins.cntSrc } hs
  have h1 : ∀ b c d u, P u → P (if b = true then transitionTimer0 c d (transitionInt d u) else u) := fun b c d u hu =>
    ite b (h.transition0 _ _ _ (hint _ _ hu)) hu
  have h2 : ∀ b c d u, P u → P (if b = true then transitionTimer1 c d u else u) := fun b c d u hu =>
    ite b (h.transition1 _ _ _ hu) hu
  have h3 : ∀ b c u, P u → P (if b = true then transitionComparator c u else u) := fun b c u hu =>
    ite b (hcmp _ _ hu) hu
  have h4 : ∀ b c u, P u → P (if b = true then transitionCountSource c u else u) := fun b c u hu =>
    ite b (hcnt _ _ hu) hu
  exact h4 _ _ _ (h3 _ _ _ (h2 _ _ _ _ (h1 _ _ _ _ h0)))

theorem AgentStable.applyEvent (h : AgentStable P) (e : Event) (hs : P u) : P (applyEvent u e) := by
  cases e with
  | wdtOscillator =>
    simp only [Machine.applyEvent]
    split
    · exact h.watchdog _ hs
    · exact hs
  | eepromDone => exact h.busy _ _ hs
  | resLow => simp only [Machine.applyEvent]; exact h.resReset hs
  | lowVoltage =>
    simp only [Machine.applyEvent]
    split
    · exact h.resReset hs
    · exact hs
  | powerOn => simp only [Machine.applyEvent]; exact h.reset _ _ (by decide) (by decide) hs
  | _ => simp only [Machine.applyEvent]; exact h.sense (h.pins _ _ hs)

theorem AgentStable.events (h : AgentStable P) (es : List Event) (hs : P u) : P (es.foldl Machine.applyEvent u) := by
  induction es generalizing u with
  | nil => exact hs
  | cons e es ih => exact ih (h.applyEvent e hs)

theorem AgentStable.environment (h : AgentStable P) (hs : P u) : P (environment u) := by
  unfold Machine.environment
  split
  · exact hs
  · rename_i events rest he
    exact h.events events (h.script _ _ _ he hs)

theorem AgentStable.systemCycle (h : AgentStable P) (hs : P u) : P (systemCycle u) := by
  have h0 : ∀ u, P u → P (systemClock u) := fun u hu => by
    unfold systemClock systemClockTimer0
    exact ite _ (h.tick0 _ (h.prescaler _ _ (h.see0 _ (h.oscillator _ _ hu)))) (h.prescaler _ _ (h.see0 _ (h.oscillator _ _ hu)))
  have h2 := h.tick1 _ <| h.see1 _ (h0 _ (h0 _ (h0 _ (h0 _ hs))))
  unfold Machine.systemCycle
  split
  · exact hs
  · dsimp only
    split
    · exact h.watchdog _ h2
    · exact h2

theorem AgentStable.interval (h : AgentStable P) (hs : P u) : P (agentInterval u) :=
  h.sense (h.environment (h.sense (h.busy _ _ (h.systemCycle hs))))

/-- A property that every action keeps holds after any number of intervals. -/
theorem AgentStable.intervals (h : AgentStable P) (n : Nat) (hs : P u) : P (agentIntervals n u) := by
  induction n generalizing u with
  | zero => exact hs
  | succ n ih => exact ih (h.interval hs)

/-- A property that every action keeps, once it holds with no cycles left to run, holds after the agents' run. -/
theorem AgentStable.runAgents (h : AgentStable P) (hs : P (u.withCycles 0)) : P (runAgents u) :=
  h.draws _ _ (h.intervals _ (h.sense hs))

end Sys2Proof.Machine
end

