-- ==== Sys2Proof/Laws/Outcomes.lean ====
section
/-! SUPPORT. Laws that connect the operand operations with the terms of the claims (Sys2Proof/Safety.lean): what a read
and a write of an operand leave, once for all instructions. -/

namespace Sys2Proof.Machine
variable (s : State)

/-- `MemRead`'s side effect is the claims' one (R125). -/
theorem afterRead_eq_afterOperand (m : DAddr) : afterRead s m = afterOperand s m := by
  by_cases h : target s m = .reg .tmr1h
  · simp [afterRead, afterOperand, regAfterRead, h]
  · rw [afterRead_of_ne s m h]
    simp [afterOperand, h]

@[simp] theorem afterOperand_ram (m : DAddr) : (afterOperand s m).ram = s.ram := rfl
@[simp] theorem afterOperand_status (m : DAddr) : (afterOperand s m).status = s.status := rfl
@[simp] theorem afterOperand_pc (m : DAddr) : (afterOperand s m).pc = s.pc := rfl
@[simp] theorem afterOperand_acc (m : DAddr) : (afterOperand s m).acc = s.acc := rfl
@[simp] theorem afterOperand_cycles (m : DAddr) : (afterOperand s m).cycles = s.cycles := rfl
@[simp] theorem afterOperand_target (m n : DAddr) : target (afterOperand s m) n = target s n := rfl
@[simp] theorem afterOperand_effAddr (m n : DAddr) : effAddr (afterOperand s m) n = effAddr s n := rfl

/-- `MemWrite` stores, in the claims' sense (R126). -/
theorem memWrite_stored (m : DAddr) (v : Byte) (h : Memory.wf 128 s.ram = true) : Stored s m v (memWrite s m v) := by
  unfold Stored
  split
  · rename_i ht
    rw [memWrite_of_ram s ht]
    exact ⟨Memory.read_write_same h _ _, fun a ha => Memory.read_write_other _ ha _, rfl⟩
  · rename_i ht
    exact memWrite_of_undefined s ht v
  · rename_i r hr
    rw [memWrite_of_reg s hr]
    exact ⟨rfl, fun a => by rw [regWrite_ram]⟩

/-- An instruction that reads `[m]` and puts an unflagged or flagged result in ACC, as the claims say it. -/
theorem readToAcc_outcome (f : Byte → AluOut) (m : DAddr) :
    AccOutcome s m (f (memValue s m)).value ((f (memValue s m)).flags.apply s.status) 1 (readToAcc f m s) := by
  unfold readToAcc
  rw [afterRead_eq_afterOperand]
  exact ⟨rfl, rfl, rfl, rfl, fun _ => rfl, rfl⟩

/-- A flagged read-modify-write anywhere but on STATUS, as the claims say it. -/
theorem readModifyWrite_flagged (f : Byte → AluOut) (m : DAddr) (h : Memory.wf 128 s.ram = true)
    (ht : target s m ≠ .reg .status) :
    FlagStoreOutcome (afterOperand s m) m (f (memValue s m)).value ((f (memValue s m)).flags.apply s.status)
      (readModifyWrite f m s) := by
  refine ⟨memWrite (afterOperand s m) m (f (memValue s m)).value, memWrite_stored _ _ _ h, ?_⟩
  unfold readModifyWrite
  rw [afterRead_eq_afterOperand, resultToMem_of_ne _ _ _ (by simpa using ht),
    memWrite_status_of_ne _ _ _ (by simpa using ht)]
  rfl

/-- An unflagged read-modify-write, as the claims say it. -/
theorem readModifyWrite_unflagged (f : Byte → Byte) (m : DAddr) (h : Memory.wf 128 s.ram = true) :
    StoreOutcome (afterOperand s m) m (f (memValue s m)) (readModifyWrite (fun v => unflagged (f v)) m s) := by
  refine ⟨memWrite (afterOperand s m) m (f (memValue s m)), memWrite_stored _ _ _ h, ?_⟩
  unfold readModifyWrite
  rw [afterRead_eq_afterOperand, resultToMem_unflagged]
  rfl

end Sys2Proof.Machine
end

