-- ==== Sys2Proof/Laws/PerInstr.lean ====
section
/-! SUPPORT. Families of facts made per instruction. EncodingBit14: every assigned word has bit 14 = 0 (R162). -/

namespace Sys2Proof.Laws

/-- Bit 14 of the instruction's word is 0 (R162). -/
def EncodingBit14.Statement (i : Instr) : Prop := (encode i).getLsbD 14 = false

/-- A word of eight operation bits with bit 14 = 0 and an address. -/
theorem bit14_formM (op : BitVec 8) (m : DAddr) (h : op.getLsbD 7 = false) : (op ++ m : PWord).getLsbD 14 = false := by
  rw [BitVec.getLsbD_append]
  exact h

theorem bit14_formI (op : BitVec 7) (x : Byte) (h : op.getLsbD 6 = false) : (op ++ x : PWord).getLsbD 14 = false := by
  rw [BitVec.getLsbD_append]
  exact h

theorem bit14_formA (op : BitVec 4) (a : PAddr) (h : op.getLsbD 3 = false) : (op ++ a : PWord).getLsbD 14 = false := by
  rw [BitVec.getLsbD_append]
  exact h

theorem bit14_formB (op : BitVec 5) (i : BitNo) (m : DAddr) (h : op.getLsbD 4 = false) :
    (op ++ (i ++ m) : PWord).getLsbD 14 = false := by
  rw [BitVec.getLsbD_append]
  exact h

theorem EncodingBit14.nop : EncodingBit14.Statement .nop := rfl
theorem EncodingBit14.clrWdt1 : EncodingBit14.Statement .clrWdt1 := rfl
theorem EncodingBit14.halt : EncodingBit14.Statement .halt := rfl
theorem EncodingBit14.ret : EncodingBit14.Statement .ret := rfl
theorem EncodingBit14.reti : EncodingBit14.Statement .reti := rfl
theorem EncodingBit14.clrWdt2 : EncodingBit14.Statement .clrWdt2 := rfl
theorem EncodingBit14.clrWdt : EncodingBit14.Statement .clrWdt := rfl
theorem EncodingBit14.movMA (m : DAddr) : EncodingBit14.Statement (.movMA m) := bit14_formM _ m rfl
theorem EncodingBit14.cplaM (m : DAddr) : EncodingBit14.Statement (.cplaM m) := bit14_formM _ m rfl
theorem EncodingBit14.cplM (m : DAddr) : EncodingBit14.Statement (.cplM m) := bit14_formM _ m rfl
theorem EncodingBit14.subAM (m : DAddr) : EncodingBit14.Statement (.subAM m) := bit14_formM _ m rfl
theorem EncodingBit14.submAM (m : DAddr) : EncodingBit14.Statement (.submAM m) := bit14_formM _ m rfl
theorem EncodingBit14.addAM (m : DAddr) : EncodingBit14.Statement (.addAM m) := bit14_formM _ m rfl
theorem EncodingBit14.addmAM (m : DAddr) : EncodingBit14.Statement (.addmAM m) := bit14_formM _ m rfl
theorem EncodingBit14.xorAM (m : DAddr) : EncodingBit14.Statement (.xorAM m) := bit14_formM _ m rfl
theorem EncodingBit14.xormAM (m : DAddr) : EncodingBit14.Statement (.xormAM m) := bit14_formM _ m rfl
theorem EncodingBit14.orAM (m : DAddr) : EncodingBit14.Statement (.orAM m) := bit14_formM _ m rfl
theorem EncodingBit14.ormAM (m : DAddr) : EncodingBit14.Statement (.ormAM m) := bit14_formM _ m rfl
theorem EncodingBit14.andAM (m : DAddr) : EncodingBit14.Statement (.andAM m) := bit14_formM _ m rfl
theorem EncodingBit14.andmAM (m : DAddr) : EncodingBit14.Statement (.andmAM m) := bit14_formM _ m rfl
theorem EncodingBit14.movAM (m : DAddr) : EncodingBit14.Statement (.movAM m) := bit14_formM _ m rfl
theorem EncodingBit14.szaM (m : DAddr) : EncodingBit14.Statement (.szaM m) := bit14_formM _ m rfl
theorem EncodingBit14.szM (m : DAddr) : EncodingBit14.Statement (.szM m) := bit14_formM _ m rfl
theorem EncodingBit14.swapaM (m : DAddr) : EncodingBit14.Statement (.swapaM m) := bit14_formM _ m rfl
theorem EncodingBit14.swapM (m : DAddr) : EncodingBit14.Statement (.swapM m) := bit14_formM _ m rfl
theorem EncodingBit14.sbcAM (m : DAddr) : EncodingBit14.Statement (.sbcAM m) := bit14_formM _ m rfl
theorem EncodingBit14.sbcmAM (m : DAddr) : EncodingBit14.Statement (.sbcmAM m) := bit14_formM _ m rfl
theorem EncodingBit14.adcAM (m : DAddr) : EncodingBit14.Statement (.adcAM m) := bit14_formM _ m rfl
theorem EncodingBit14.adcmAM (m : DAddr) : EncodingBit14.Statement (.adcmAM m) := bit14_formM _ m rfl
theorem EncodingBit14.incaM (m : DAddr) : EncodingBit14.Statement (.incaM m) := bit14_formM _ m rfl
theorem EncodingBit14.incM (m : DAddr) : EncodingBit14.Statement (.incM m) := bit14_formM _ m rfl
theorem EncodingBit14.decaM (m : DAddr) : EncodingBit14.Statement (.decaM m) := bit14_formM _ m rfl
theorem EncodingBit14.decM (m : DAddr) : EncodingBit14.Statement (.decM m) := bit14_formM _ m rfl
theorem EncodingBit14.sizaM (m : DAddr) : EncodingBit14.Statement (.sizaM m) := bit14_formM _ m rfl
theorem EncodingBit14.sizM (m : DAddr) : EncodingBit14.Statement (.sizM m) := bit14_formM _ m rfl
theorem EncodingBit14.sdzaM (m : DAddr) : EncodingBit14.Statement (.sdzaM m) := bit14_formM _ m rfl
theorem EncodingBit14.sdzM (m : DAddr) : EncodingBit14.Statement (.sdzM m) := bit14_formM _ m rfl
theorem EncodingBit14.rlaM (m : DAddr) : EncodingBit14.Statement (.rlaM m) := bit14_formM _ m rfl
theorem EncodingBit14.rlM (m : DAddr) : EncodingBit14.Statement (.rlM m) := bit14_formM _ m rfl
theorem EncodingBit14.rraM (m : DAddr) : EncodingBit14.Statement (.rraM m) := bit14_formM _ m rfl
theorem EncodingBit14.rrM (m : DAddr) : EncodingBit14.Statement (.rrM m) := bit14_formM _ m rfl
theorem EncodingBit14.rlcaM (m : DAddr) : EncodingBit14.Statement (.rlcaM m) := bit14_formM _ m rfl
theorem EncodingBit14.rlcM (m : DAddr) : EncodingBit14.Statement (.rlcM m) := bit14_formM _ m rfl
theorem EncodingBit14.rrcaM (m : DAddr) : EncodingBit14.Statement (.rrcaM m) := bit14_formM _ m rfl
theorem EncodingBit14.rrcM (m : DAddr) : EncodingBit14.Statement (.rrcM m) := bit14_formM _ m rfl
theorem EncodingBit14.tabrdcM (m : DAddr) : EncodingBit14.Statement (.tabrdcM m) := bit14_formM _ m rfl
theorem EncodingBit14.tabrdlM (m : DAddr) : EncodingBit14.Statement (.tabrdlM m) := bit14_formM _ m rfl
theorem EncodingBit14.daaM (m : DAddr) : EncodingBit14.Statement (.daaM m) := bit14_formM _ m rfl
theorem EncodingBit14.clrM (m : DAddr) : EncodingBit14.Statement (.clrM m) := bit14_formM _ m rfl
theorem EncodingBit14.setM (m : DAddr) : EncodingBit14.Statement (.setM m) := bit14_formM _ m rfl
theorem EncodingBit14.retAX (x : Byte) : EncodingBit14.Statement (.retAX x) := bit14_formI _ x rfl
theorem EncodingBit14.subAX (x : Byte) : EncodingBit14.Statement (.subAX x) := bit14_formI _ x rfl
theorem EncodingBit14.addAX (x : Byte) : EncodingBit14.Statement (.addAX x) := bit14_formI _ x rfl
theorem EncodingBit14.xorAX (x : Byte) : EncodingBit14.Statement (.xorAX x) := bit14_formI _ x rfl
theorem EncodingBit14.orAX (x : Byte) : EncodingBit14.Statement (.orAX x) := bit14_formI _ x rfl
theorem EncodingBit14.andAX (x : Byte) : EncodingBit14.Statement (.andAX x) := bit14_formI _ x rfl
theorem EncodingBit14.movAX (x : Byte) : EncodingBit14.Statement (.movAX x) := bit14_formI _ x rfl
theorem EncodingBit14.callAddr (addr : PAddr) : EncodingBit14.Statement (.callAddr addr) := bit14_formA _ addr rfl
theorem EncodingBit14.jmpAddr (addr : PAddr) : EncodingBit14.Statement (.jmpAddr addr) := bit14_formA _ addr rfl
theorem EncodingBit14.setMi (m : DAddr) (i : BitNo) : EncodingBit14.Statement (.setMi m i) := bit14_formB _ i m rfl
theorem EncodingBit14.clrMi (m : DAddr) (i : BitNo) : EncodingBit14.Statement (.clrMi m i) := bit14_formB _ i m rfl
theorem EncodingBit14.snzMi (m : DAddr) (i : BitNo) : EncodingBit14.Statement (.snzMi m i) := bit14_formB _ i m rfl
theorem EncodingBit14.szMi (m : DAddr) (i : BitNo) : EncodingBit14.Statement (.szMi m i) := bit14_formB _ i m rfl

end Sys2Proof.Laws
end

