-- ==== Sys2Proof/Tests/Slice0.lean ====
section
/-! SUPPORT. Tests by `decide`: the checks of WellFormed, the decoding of one word of every instruction, one or two small
one-step tests of each instruction with the numbers of spec/95_test_vectors.md (named "file 95" below), and for every
statement with hypotheses a witness that they can be met together. -/

open Sys2Proof Sys2Proof.Machine

namespace Sys2Proof.Tests

/-! ## Helpers -/

/-- The state in which an instruction fetched from 010H executes (R13): ACC = a, [40H] = v. -/
def ramState (a v : Byte) : State :=
  { State.reset with acc := a, pc := 0x011#11, ram := Memory.write [] 0x40 v }

/-- STATUS with the given OV, Z, AC and C, and TO = PDF = 0. -/
def flags (ov z ac c : Bool) : Status := { ov := ov, z := z, ac := ac, c := c, pdf := false, timeOut := false }

/-- What is to be seen of the next state, if there is one. -/
def ofNext {α : Type} (o : Host.Outcome State Fault Refusal) (f : State → α) : Option α :=
  match o with
  | .next t => some (f t)
  | .fault _ => none
  | .refused _ => none

/-- ACC and STATUS after an instruction. -/
def accAndFlags (i : Instr) (s : State) : Option (Byte × Status) := ofNext (exec i s) (fun t => (t.acc, t.status))

/-- [40H] and STATUS after an instruction. -/
def cellAndFlags (i : Instr) (s : State) : Option (Byte × Status) :=
  ofNext (exec i s) (fun t => (Memory.read t.ram 0x40, t.status))

/-- PC, [40H], ACC and the cycles after an instruction. -/
def pcAndCell (i : Instr) (s : State) : Option (PAddr × Byte × Byte × Nat) :=
  ofNext (exec i s) (fun t => (t.pc, Memory.read t.ram 0x40, t.acc, t.cycles))

/-- `s` with carry C. -/
def withCarry (c : Bool) (s : State) : State := { s with status := { s.status with c := c } }

/-- The state after reset with other mask options. -/
def withOptions (o : Options) (s : State) : State := { s with cfg := { s.cfg with opt := o } }

/-- The watchdog enabled, on the instruction clock. -/
def watchdogOptions (two : Bool) : Options :=
  { defaultOptions with wdtEnabled := true, wdtClock := .systemQuarter, twoClears := two }

/-! ## Well-formedness: the default configuration passes, and each check refuses a configuration that breaks it -/

theorem test_wf_default : defaultConfig.wf = true := by decide

/-- STATUS must be at 0AH (R52). -/
theorem test_wf_refuses_status_elsewhere :
    ({ defaultConfig with sfrMap := (0x3F#7, .status) :: defaultSfrMap.filter (·.2 != .status) } : Config).sfrMapOk
      = false := by decide

/-- Two registers at one address (R52). -/
theorem test_wf_refuses_shared_address :
    ({ defaultConfig with sfrMap := (0x02#7, .cmpc) :: (0x02#7, .opac3)
        :: defaultSfrMap.filter (fun p => p.2 != .cmpc && p.2 != .opac3) } : Config).sfrMapOk = false := by decide

/-- RAM must start above every register (R36, R52). -/
theorem test_wf_refuses_low_ram : ({ defaultConfig with gprBase := 0x1A#7 } : Config).wf = false := by decide

theorem test_wf_refuses_status_bits :
    ({ defaultConfig with statusPos := { ov := 3, z := 2, ac := 2, c := 0 } } : Config).wf = false := by decide

theorem test_wf_refuses_interrupt_bits :
    ({ defaultConfig with intcPos := { defaultConfig.intcPos with et0i := 4 } } : Config).wf = false := by decide

theorem test_wf_refuses_misc_bits :
    ({ defaultConfig with miscPos := { defaultConfig.miscPos with cmpes := 7 } } : Config).wf = false := by decide

theorem test_wf_refuses_analog_bits :
    ({ defaultConfig with cmpcPos := { enable := 6, flag := 6 } } : Config).wf = false := by decide

/-- Two meanings of one word, and instructions without a word (R160). -/
theorem test_wf_refuses_encoding : ({ defaultConfig with enc := .words [(0, .nop), (0, .halt)] } : Config).wf = false
    ∧ ({ defaultConfig with enc := .words [(0, .nop)] } : Config).wf = false := by decide

/-- Another encoding: only its own words are instructions. -/
theorem test_other_encoding : (decodeWith (.words [(0x4001#15, .halt)]) 0x4001).toOption = some .halt
    ∧ (decodeWith (.words [(0x4001#15, .halt)]) 0x0002).toOption = none
    ∧ (decodeWith .assigned 0x0002).toOption = some .halt := by decide

theorem test_wf_refuses_no_write_time : ({ defaultConfig with writeTime := 0 } : Config).wf = false := by decide

/-! ## Decoding: every instruction, its word written out bit by bit -/

/-- Decoding, whole words (R165): the words of the spec's encoding table. -/
theorem test_decode_formatN : ∀ p ∈ ([
    (0b000000000000000#15, .nop),
    (0b000000000000001#15, .clrWdt1),
    (0b000000000000010#15, .halt),
    (0b000000000000011#15, .ret),
    (0b000000000000100#15, .reti),
    (0b000000000000101#15, .clrWdt2),
    (0b000000000000110#15, .clrWdt)] : List (PWord × Instr)),
    (decode p.1).toOption = some p.2 ∧ decodeTableWord 16 p.1.toNat = some p.2 := by decide

/-- Decoding, format M, m = 1011010 (R166): the words of the spec's encoding table. -/
theorem test_decode_formatM_a : ∀ p ∈ ([
    (0b000000011011010#15, .movMA 0x5A#7),
    (0b000000101011010#15, .cplaM 0x5A#7),
    (0b000000111011010#15, .cplM 0x5A#7),
    (0b000001001011010#15, .subAM 0x5A#7),
    (0b000001011011010#15, .submAM 0x5A#7),
    (0b000001101011010#15, .addAM 0x5A#7),
    (0b000001111011010#15, .addmAM 0x5A#7),
    (0b000010001011010#15, .xorAM 0x5A#7),
    (0b000010011011010#15, .xormAM 0x5A#7),
    (0b000010101011010#15, .orAM 0x5A#7),
    (0b000010111011010#15, .ormAM 0x5A#7),
    (0b000011001011010#15, .andAM 0x5A#7),
    (0b000011011011010#15, .andmAM 0x5A#7),
    (0b000011101011010#15, .movAM 0x5A#7),
    (0b001000001011010#15, .szaM 0x5A#7)] : List (PWord × Instr)),
    (decode p.1).toOption = some p.2 ∧ decodeTableWord 16 p.1.toNat = some p.2 := by decide

/-- Decoding, format M, m = 1011010 (R166): the words of the spec's encoding table. -/
theorem test_decode_formatM_b : ∀ p ∈ ([
    (0b001000011011010#15, .szM 0x5A#7),
    (0b001000101011010#15, .swapaM 0x5A#7),
    (0b001000111011010#15, .swapM 0x5A#7),
    (0b001001001011010#15, .sbcAM 0x5A#7),
    (0b001001011011010#15, .sbcmAM 0x5A#7),
    (0b001001101011010#15, .adcAM 0x5A#7),
    (0b001001111011010#15, .adcmAM 0x5A#7),
    (0b001010001011010#15, .incaM 0x5A#7),
    (0b001010011011010#15, .incM 0x5A#7),
    (0b001010101011010#15, .decaM 0x5A#7),
    (0b001010111011010#15, .decM 0x5A#7),
    (0b001011001011010#15, .sizaM 0x5A#7),
    (0b001011011011010#15, .sizM 0x5A#7),
    (0b001011101011010#15, .sdzaM 0x5A#7),
    (0b001011111011010#15, .sdzM 0x5A#7)] : List (PWord × Instr)),
    (decode p.1).toOption = some p.2 ∧ decodeTableWord 16 p.1.toNat = some p.2 := by decide

/-- Decoding, format M, m = 1011010 (R166): the words of the spec's encoding table. -/
theorem test_decode_formatM_c : ∀ p ∈ ([
    (0b001100001011010#15, .rlaM 0x5A#7),
    (0b001100011011010#15, .rlM 0x5A#7),
    (0b001100101011010#15, .rraM 0x5A#7),
    (0b001100111011010#15, .rrM 0x5A#7),
    (0b001101001011010#15, .rlcaM 0x5A#7),
    (0b001101011011010#15, .rlcM 0x5A#7),
    (0b001101101011010#15, .rrcaM 0x5A#7),
    (0b001101111011010#15, .rrcM 0x5A#7),
    (0b001110101011010#15, .tabrdcM 0x5A#7),
    (0b001110111011010#15, .tabrdlM 0x5A#7),
    (0b001111011011010#15, .daaM 0x5A#7),
    (0b001111101011010#15, .clrM 0x5A#7),
    (0b001111111011010#15, .setM 0x5A#7)] : List (PWord × Instr)),
    (decode p.1).toOption = some p.2 ∧ decodeTableWord 16 p.1.toNat = some p.2 := by decide

/-- Decoding, format I, x = 10100111 (R167): the words of the spec's encoding table. -/
theorem test_decode_formatI : ∀ p ∈ ([
    (0b000100110100111#15, .retAX 0xA7#8),
    (0b000101010100111#15, .subAX 0xA7#8),
    (0b000101110100111#15, .addAX 0xA7#8),
    (0b000110010100111#15, .xorAX 0xA7#8),
    (0b000110110100111#15, .orAX 0xA7#8),
    (0b000111010100111#15, .andAX 0xA7#8),
    (0b000111110100111#15, .movAX 0xA7#8)] : List (PWord × Instr)),
    (decode p.1).toOption = some p.2 ∧ decodeTableWord 16 p.1.toNat = some p.2 := by decide

/-- Decoding, format A, addr = 10100101100 (R168): the words of the spec's encoding table. -/
theorem test_decode_formatA : ∀ p ∈ ([
    (0b010010100101100#15, .callAddr 0x52C#11),
    (0b010110100101100#15, .jmpAddr 0x52C#11)] : List (PWord × Instr)),
    (decode p.1).toOption = some p.2 ∧ decodeTableWord 16 p.1.toNat = some p.2 := by decide

/-- Decoding, format B, i = 101, m = 1011010 (R168): the words of the spec's encoding table. -/
theorem test_decode_formatB : ∀ p ∈ ([
    (0b011001011011010#15, .setMi 0x5A#7 5#3),
    (0b011011011011010#15, .clrMi 0x5A#7 5#3),
    (0b011101011011010#15, .snzMi 0x5A#7 5#3),
    (0b011111011011010#15, .szMi 0x5A#7 5#3)] : List (PWord × Instr)),
    (decode p.1).toOption = some p.2 ∧ decodeTableWord 16 p.1.toNat = some p.2 := by decide

/-- The ends of the five unassigned ranges (R170). -/
theorem test_decode_unassigned : ([0x0007#15, 0x007F#15, 0x0780#15, 0x08FF#15, 0x1C00#15, 0x1CFF#15, 0x1E00#15, 0x1E7F#15,
    0x4000#15, 0x7FFF#15] : List PWord).all (fun w => (decode w).toOption.isNone) = true := by decide

/-- The assigned words next to them (R165 to R168). -/
theorem test_decode_beside_unassigned : ([0x0006#15, 0x0080#15, 0x077F#15, 0x0900#15, 0x1BFF#15, 0x1D00#15, 0x1DFF#15,
    0x1E80#15, 0x3FFF#15] : List PWord).all (fun w => (decode w).toOption.isSome) = true := by decide

/-! ## Arithmetic (file 95, 2.1 and 2.2) -/

theorem test_addAX_rows : ∀ p ∈ ([(0x00, 0x00, 0x00, flags false true false false),
    (0x0F, 0x01, 0x10, flags false false true false), (0x7F, 0x01, 0x80, flags true false true false),
    (0xFF, 0x01, 0x00, flags false true true true), (0x80, 0x80, 0x00, flags true true false true),
    (0x45, 0x55, 0x9A, flags true false false false), (0xF0, 0x10, 0x00, flags false true false true)]
      : List (Byte × Byte × Byte × Status)),
    accAndFlags (.addAX p.2.1) (ramState p.1 0) = some (p.2.2.1, p.2.2.2) := by decide

theorem test_addAM : accAndFlags (.addAM 0x40#7) (ramState 0x3A 0xC6) = some (0x00, flags false true true true) := by
  decide

theorem test_addmAM : cellAndFlags (.addmAM 0x40#7) (ramState 0x7F 0x01) = some (0x80, flags true false true false) := by
  decide

/-- ADDM on PCL at 100H: PCL reads 01H, the result 03H is a jump to 103H in two cycles. -/
theorem test_addmAM_pcl : ofNext (exec (.addmAM 0x06#7) { State.reset with acc := 0x02, pc := 0x101 })
    (fun t => (t.pc, t.cycles, t.status)) = some (0x103, 2, flags false false false false) := by decide

theorem test_adcAM_rows : ∀ p ∈ ([(0xFF, 0x00, true, 0x00, flags false true true true),
    (0x7F, 0x00, true, 0x80, flags true false true false), (0xFF, 0xFF, true, 0xFF, flags false false true true),
    (0x12, 0x34, false, 0x46, flags false false false false)] : List (Byte × Byte × Bool × Byte × Status)),
    accAndFlags (.adcAM 0x40#7) (withCarry p.2.2.1 (ramState p.1 p.2.1)) = some (p.2.2.2.1, p.2.2.2.2) := by decide

theorem test_adcmAM : cellAndFlags (.adcmAM 0x40#7) (withCarry true (ramState 0x01 0xFF))
    = some (0x01, flags false false true true) := by decide

theorem test_subAX_rows : ∀ p ∈ ([(0x00, 0x00, 0x00, flags false true true true),
    (0x00, 0x01, 0xFF, flags false false false false), (0x10, 0x01, 0x0F, flags false false false true),
    (0x80, 0x01, 0x7F, flags true false false true), (0x7F, 0xFF, 0x80, flags true false true false),
    (0x50, 0x60, 0xF0, flags false false true false)] : List (Byte × Byte × Byte × Status)),
    accAndFlags (.subAX p.2.1) (ramState p.1 0) = some (p.2.2.1, p.2.2.2) := by decide

theorem test_subAM : accAndFlags (.subAM 0x40#7) (ramState 0x05 0x06) = some (0xFF, flags false false false false) := by
  decide

/-- SUB of ACC from itself, through its data address. -/
theorem test_subAM_acc : accAndFlags (.subAM 0x05#7) (ramState 0x9C 0) = some (0x00, flags false true true true) := by
  decide

theorem test_submAM : cellAndFlags (.submAM 0x40#7) (ramState 0x80 0x01) = some (0x7F, flags true false false true) := by
  decide

theorem test_sbcAM_rows : ∀ p ∈ ([(0x00, 0x00, false, 0xFF, flags false false false false),
    (0x10, 0x0F, false, 0x00, flags false true false true), (0x80, 0x7F, false, 0x00, flags true true false true),
    (0x00, 0xFF, false, 0x00, flags false true false false), (0x34, 0x12, true, 0x22, flags false false true true)]
      : List (Byte × Byte × Bool × Byte × Status)),
    accAndFlags (.sbcAM 0x40#7) (withCarry p.2.2.1 (ramState p.1 p.2.1)) = some (p.2.2.2.1, p.2.2.2.2) := by decide

theorem test_sbcmAM : cellAndFlags (.sbcmAM 0x40#7) (withCarry false (ramState 0x01 0x00))
    = some (0x00, flags false true true true) := by decide

/-- DAA: (ACC, C, AC, the byte stored, C after). -/
theorem test_daa_rows : ([(0x3C#8, false, false, 0x42#8, false), (0x9A, false, false, 0x00, true),
    (0x12, false, true, 0x18, false), (0x32, true, true, 0x98, true), (0x99, false, false, 0x99, false),
    (0xA0, false, false, 0x00, true), (0xFF, false, false, 0x65, true), (0x10, true, false, 0x70, true),
    (0x9F, false, false, 0x05, true), (0xF9, false, true, 0x5F, true)]).all
    (fun p => daaOut p.1 p.2.2.1 p.2.1 == carryFlagged p.2.2.2.1 p.2.2.2.2) = true := by decide

/-- DAA stores the byte at [m], which it does not read, and writes C alone. -/
theorem test_daaM : cellAndFlags (.daaM 0x40#7) { ramState 0x9A 0x77 with status := flags true true false false }
    = some (0x00, flags true true false true) := by decide

/-! ## Logic (file 95, 2.3): Z alone is written -/

theorem test_andAX : accAndFlags (.andAX 0x5A) (withCarry true (ramState 0xA5 0))
    = some (0x00, flags false true false true) := by decide

theorem test_orAX : accAndFlags (.orAX 0x0F) (ramState 0xA5 0) = some (0xAF, flags false false false false) := by decide

theorem test_xorAX : accAndFlags (.xorAX 0xFF) (ramState 0xA5 0) = some (0x5A, flags false false false false) := by decide

theorem test_andAM : accAndFlags (.andAM 0x40#7) (ramState 0xF0 0x3C) = some (0x30, flags false false false false) := by
  decide

theorem test_orAM : accAndFlags (.orAM 0x40#7) (ramState 0xF0 0x0C) = some (0xFC, flags false false false false) := by
  decide

/-- XOR A,[05H]: the operand is ACC itself. -/
theorem test_xorAM_acc : accAndFlags (.xorAM 0x05#7) (ramState 0xA5 0) = some (0x00, flags false true false false) := by
  decide

theorem test_andmAM : cellAndFlags (.andmAM 0x40#7) (ramState 0xF0 0x3C) = some (0x30, flags false false false false) := by
  decide

theorem test_ormAM : cellAndFlags (.ormAM 0x40#7) (ramState 0x00 0x00) = some (0x00, flags false true false false) := by
  decide

theorem test_xormAM : cellAndFlags (.xormAM 0x40#7) (ramState 0xFF 0x0F) = some (0xF0, flags false false false false) := by
  decide

theorem test_cplM : cellAndFlags (.cplM 0x40#7) (ramState 0x00 0xFF) = some (0x00, flags false true false false) := by
  decide

theorem test_cplaM : ofNext (exec (.cplaM 0x40#7) (ramState 0x00 0xA5)) (fun t => (t.acc, Memory.read t.ram 0x40, t.status.z))
    = some (0x5A, 0xA5, false) := by decide

/-! ## Increment, decrement, rotate (file 95, 2.4) -/

theorem test_incM : cellAndFlags (.incM 0x40#7) (withCarry true (ramState 0 0xFF))
    = some (0x00, flags false true false true) := by decide

/-- INC of MP: bit 7 reads 1, so FFH + 1 = 00H. -/
theorem test_incM_mp : ofNext (exec (.incM 0x01#7) { State.reset with mp := 0x7F }) (fun t => (t.mp, t.status.z))
    = some (0x00, true) := by decide

theorem test_incaM : ofNext (exec (.incaM 0x40#7) (ramState 0 0x7F)) (fun t => (t.acc, Memory.read t.ram 0x40, t.status))
    = some (0x80, 0x7F, flags false false false false) := by decide

theorem test_decM : cellAndFlags (.decM 0x40#7) (ramState 0 0x00) = some (0xFF, flags false false false false) := by decide

theorem test_decaM : accAndFlags (.decaM 0x40#7) (ramState 0x55 0x01) = some (0x00, flags false true false false) := by
  decide

theorem test_rrM : cellAndFlags (.rrM 0x40#7) (ramState 0 0x01) = some (0x80, flags false false false false) := by decide

theorem test_rraM : accAndFlags (.rraM 0x40#7) (ramState 0 0xA5) = some (0xD2, flags false false false false) := by decide

theorem test_rlM : cellAndFlags (.rlM 0x40#7) (ramState 0 0x80) = some (0x01, flags false false false false) := by decide

theorem test_rlaM : accAndFlags (.rlaM 0x40#7) (ramState 0 0xA5) = some (0x4B, flags false false false false) := by decide

theorem test_rrcM_out : cellAndFlags (.rrcM 0x40#7) (ramState 0 0x01) = some (0x00, flags false false false true) := by
  decide

theorem test_rrcM_in : cellAndFlags (.rrcM 0x40#7) (withCarry true (ramState 0 0x80))
    = some (0xC0, flags false false false false) := by decide

theorem test_rrcaM : accAndFlags (.rrcaM 0x40#7) (ramState 0 0xA5) = some (0x52, flags false false false true) := by decide

theorem test_rlcM : cellAndFlags (.rlcM 0x40#7) (withCarry true (ramState 0 0xA5))
    = some (0x4B, flags false false false true) := by decide

theorem test_rlcaM : accAndFlags (.rlcaM 0x40#7) (withCarry true (ramState 0 0x00))
    = some (0x01, flags false false false false) := by decide

/-! ## Moves and bits (file 95, 2.5) -/

theorem test_movAX : accAndFlags (.movAX 0x5A) (ramState 0 0) = some (0x5A, flags false false false false) := by decide

theorem test_movAM_undefined : accAndFlags (.movAM 0x02#7) (ramState 0x77 0) = some (0x00, flags false false false false) := by
  decide

/-- MOV A,[MP] with MP[6:0] = 23H gives A3H; MOV A,[PCL] at 1FEH gives FFH. -/
theorem test_movAM_registers : accAndFlags (.movAM 0x01#7) { State.reset with mp := 0x23 }
      = some (0xA3, flags false false false false)
    ∧ accAndFlags (.movAM 0x06#7) { State.reset with pc := 0x1FF } = some (0xFF, flags false false false false) := by decide

/-- MOV [0AH],A writes the four flags and leaves TO and PDF. -/
theorem test_movMA_status : ofNext (exec (.movMA 0x0A#7) (ramState 0xFF 0)) (fun t => t.status)
    = some (flags true true true true) := by decide

/-- MOV [06H],A at 0FFH with ACC = 10H goes to 110H, at 0FEH to 010H (D8). -/
theorem test_movMA_pcl : ofNext (exec (.movMA 0x06#7) { State.reset with acc := 0x10, pc := 0x100 }) (fun t => (t.pc, t.cycles))
      = some (0x110, 2)
    ∧ ofNext (exec (.movMA 0x06#7) { State.reset with acc := 0x10, pc := 0x0FF }) (fun t => (t.pc, t.cycles))
      = some (0x010, 2) := by decide

theorem test_setMi : cellAndFlags (.setMi 0x40#7 7#3) (ramState 0 0x00) = some (0x80, flags false false false false) := by
  decide

theorem test_clrMi : cellAndFlags (.clrMi 0x40#7 0#3) (ramState 0 0xFF) = some (0xFE, flags false false false false) := by
  decide

/-! ## Branches (file 95, 2.6) -/

theorem test_jmpAddr : ofNext (exec (.jmpAddr 0x123) (ramState 0 0)) (fun t => (t.pc, t.cycles)) = some (0x123, 2) := by
  decide

theorem test_szM : pcAndCell (.szM 0x40#7) (ramState 0 0x00) = some (0x012, 0x00, 0x00, 2)
    ∧ pcAndCell (.szM 0x40#7) (ramState 0 0x01) = some (0x011, 0x01, 0x00, 1) := by decide

/-- SZ at 7FFH: the skip goes on from 000H to 001H (D7). -/
theorem test_szM_wraps : ofNext (step { State.reset with pc := 0x7FF, program := Memory.write [] 0x7FF 0x10C0#15 })
    (fun t => t.pc) = some 0x001 := by decide +kernel

theorem test_szaM : pcAndCell (.szaM 0x40#7) (ramState 0x77 0x00) = some (0x012, 0x00, 0x00, 2)
    ∧ pcAndCell (.szaM 0x40#7) (ramState 0x77 0x09) = some (0x011, 0x09, 0x09, 1) := by decide

theorem test_szMi : pcAndCell (.szMi 0x40#7 7#3) (ramState 0 0x7F) = some (0x012, 0x7F, 0x00, 2)
    ∧ pcAndCell (.szMi 0x40#7 7#3) (ramState 0 0x80) = some (0x011, 0x80, 0x00, 1) := by decide

theorem test_snzMi : pcAndCell (.snzMi 0x40#7 7#3) (ramState 0 0x80) = some (0x012, 0x80, 0x00, 2)
    ∧ pcAndCell (.snzMi 0x40#7 7#3) (ramState 0 0x7F) = some (0x011, 0x7F, 0x00, 1) := by decide

theorem test_sizM : pcAndCell (.sizM 0x40#7) (ramState 0x11 0xFF) = some (0x012, 0x00, 0x11, 2) := by decide

theorem test_sdzM : pcAndCell (.sdzM 0x40#7) (ramState 0x11 0x01) = some (0x012, 0x00, 0x11, 2)
    ∧ pcAndCell (.sdzM 0x40#7) (ramState 0x11 0x00) = some (0x011, 0xFF, 0x11, 1) := by decide

theorem test_sizaM : pcAndCell (.sizaM 0x40#7) (ramState 0x11 0xFF) = some (0x012, 0xFF, 0x00, 2) := by decide

theorem test_sdzaM : pcAndCell (.sdzaM 0x40#7) (ramState 0x11 0x02) = some (0x011, 0x02, 0x01, 1) := by decide

theorem test_callAddr : ofNext (exec (.callAddr 0x200) (ramState 0 0)) (fun t => (t.pc, t.stack, t.cycles))
    = some (0x200, [0x011], 2) := by decide

theorem test_callAddr_full : ofNext (exec (.callAddr 0x200) { ramState 0 0 with stack := [1, 2, 3, 4] })
    (fun t => (t.pc, t.stack)) = some (0x200, [2, 3, 4, 0x011]) := by decide

theorem test_ret : ofNext (exec .ret { ramState 0 0 with stack := [0x022, 0x033] }) (fun t => (t.pc, t.stack, t.intc.emi))
    = some (0x033, [0x022], false) := by decide

theorem test_retAX : ofNext (exec (.retAX 0x45) { ramState 0 0 with stack := [0x011] }) (fun t => (t.pc, t.stack, t.acc))
    = some (0x011, [], 0x45) := by decide

theorem test_reti : ofNext (exec .reti { ramState 0 0 with stack := [0x02C] }) (fun t => (t.pc, t.stack, t.intc.emi))
    = some (0x02C, [], true) := by decide

/-! ## Table reads (file 95, 2.7) -/

/-- TABRDC at 210H with TBLP = 34H reads 234H; at 2FFH with TBLP = 10H it reads 310H (D8). -/
theorem test_tabrdcM :
    ofNext (exec (.tabrdcM 0x40#7) { State.reset with pc := 0x211, tblp := 0x34, program := Memory.write [] 0x234 0x5A3C#15 })
      (fun t => (Memory.read t.ram 0x40, t.tblh, t.cycles)) = some (0x3C, 0x5A, 2)
    ∧ ofNext (exec (.tabrdcM 0x40#7) { State.reset with pc := 0x300, tblp := 0x10, program := Memory.write [] 0x310 0x0123#15 })
      (fun t => (Memory.read t.ram 0x40, t.tblh, t.tblp)) = some (0x23, 0x01, 0x10) := by decide

/-- TABRDL into TBLP itself. -/
theorem test_tabrdlM : ofNext (exec (.tabrdlM 0x07#7) { State.reset with program := Memory.write [] 0x700 0x1234#15 })
    (fun t => (t.tblp, t.tblh)) = some (0x34, 0x12) := by decide

/-! ## Miscellaneous (file 95, 2.8) -/

theorem test_nop : exec .nop (ramState 1 2) = .next ((ramState 1 2).withCycles 1) := by rfl

theorem test_clrM : cellAndFlags (.clrM 0x40#7) (ramState 0 0xA5) = some (0x00, flags false false false false) := by decide

theorem test_setM : cellAndFlags (.setM 0x40#7) (ramState 0 0x00) = some (0xFF, flags false false false false) := by decide

theorem test_swapM : cellAndFlags (.swapM 0x40#7) (ramState 0 0xA5) = some (0x5A, flags false false false false) := by
  decide

theorem test_swapaM : accAndFlags (.swapaM 0x40#7) (ramState 0 0x1F) = some (0xF1, flags false false false false) := by
  decide

/-- TO = PDF = 1, and a running watchdog count. -/
def timedOut (two : Bool) (last : WdtLast) : State :=
  { withOptions (watchdogOptions two) State.reset with
    status := { flags false false false false with timeOut := true, pdf := true }
    wdt := { count := 0x33, prescaler := 0x11, last := last } }

theorem test_clrWdt : ofNext (exec .clrWdt (timedOut false .neither)) (fun t => (t.wdt.count, t.status))
    = some (0x00, flags false false false false) := by decide

/-- With the watchdog disabled CLR WDT does nothing (D25). -/
theorem test_clrWdt_disabled : ofNext (exec .clrWdt { timedOut false .neither with cfg := defaultConfig })
    (fun t => (t.wdt.count, t.status.timeOut, t.status.pdf)) = some (0x33, true, true) := by decide

theorem test_clrWdt1 : ofNext (exec .clrWdt1 (timedOut true .second)) (fun t => (t.wdt, t.status.timeOut))
      = some ({ count := 0, prescaler := 0, last := .first }, false)
    ∧ ofNext (exec .clrWdt1 (timedOut true .first)) (fun t => (t.wdt, t.status.timeOut))
      = some ({ count := 0x33, prescaler := 0x11, last := .first }, true) := by decide

theorem test_clrWdt2 : ofNext (exec .clrWdt2 (timedOut true .first)) (fun t => (t.wdt, t.status.timeOut))
    = some ({ count := 0, prescaler := 0, last := .second }, false) := by decide

theorem test_halt : ofNext (exec .halt { timedOut false .neither with pc := 0x031 })
    (fun t => (t.mode, t.pc, t.wdt.count, t.status.timeOut, t.status.pdf))
    = some (.halted, 0x031, 0x00, false, true) := by decide

/-! ## Registers with a special write or read (file 95, 2.5 and 2.10) -/

theorem test_status_protected : ofNext (exec (.movMA 0x08#7) { State.reset with acc := 0x55, tblh := 0x12 }) (fun t => t.tblh)
    = some 0x12 := by decide

/-- TMR1L goes to the buffer, TMR1H takes it along. -/
theorem test_timer1_write : ofNext (exec (.movMA 0x10#7) { State.reset with acc := 0x34 })
      (fun t => (t.tmr1.buffer, t.tmr1.counter)) = some (0x34, 0x0000)
    ∧ ofNext (exec (.movMA 0x0F#7) { State.reset with acc := 0x12, tmr1 := { State.reset.tmr1 with buffer := 0x34 } })
      (fun t => (t.tmr1.preload, t.tmr1.counter)) = some (0x1234, 0x1234) := by decide

/-- A read of TMR1H loads the buffer. -/
theorem test_timer1_read : ofNext (exec (.movAM 0x0F#7) { State.reset with tmr1 := { State.reset.tmr1 with counter := 0x12FF } })
    (fun t => (t.acc, t.tmr1.buffer)) = some (0x12, 0xFF) := by decide

/-- A write of TMR0 while the timer is on leaves the counter. -/
theorem test_timer0_write_on :
    ofNext (exec (.movMA 0x0D#7) { State.reset with acc := 0x10, tmr0 := { State.reset.tmr0 with on := true, counter := 0xC0 } })
      (fun t => (t.tmr0.preload, t.tmr0.counter)) = some (0x10, 0xC0) := by decide

/-- CLR [IAR] clears the cell MP points to. -/
theorem test_indirect : cellAndFlags (.clrM 0x00#7) { ramState 0 0xA5 with mp := 0x40 }
    = some (0x00, flags false false false false) := by decide

/-! ## Interrupts, timers, watchdog, resets (file 95, 2.9 to 2.11) -/

/-- The interrupt bits of the byte INTC0 and of ECI and CF. -/
def intc (intc0 : Byte) (eci cf : Bool) : Interrupts :=
  { intc0Written State.reset intc0 with eci := eci, cf := cf }

/-- INTC0 and INTC1 before, the source accepted. -/
theorem test_acceptance : ∀ p ∈ ([(0x2D, false, false, some .timer0), (0x7F, false, false, some .external),
    (0x6D, false, false, some .timer0), (0x2C, false, false, none), (0x29, false, false, none),
    (0x01, true, true, some .comparator)] : List (Byte × Bool × Bool × Option IrqSource)),
    acceptable { State.reset with intc := intc p.1 p.2.1 p.2.2.1 } = p.2.2.2 := by decide

/-- Entry at 02CH with INTC0 = 2DH: [02CH] on the stack, PC = 008H, INTC0 = 0CH. -/
theorem test_entry : (enterInterrupt .timer0 { State.reset with pc := 0x02C, intc := intc 0x2D false false }).pc = 0x008
    ∧ (enterInterrupt .timer0 { State.reset with pc := 0x02C, intc := intc 0x2D false false }).stack = [0x02C]
    ∧ (enterInterrupt .timer0 { State.reset with pc := 0x02C, intc := intc 0x2D false false }).intc
      = intc 0x0C false false := by decide

/-- Timer 0 at FFH: the preload, T0F; at FEH: FFH. -/
theorem test_timer0_overflow :
    (countTimer0 { State.reset with tmr0 := { State.reset.tmr0 with counter := 0xFF, preload := 0x9B } }).tmr0.counter = 0x9B
    ∧ (countTimer0 { State.reset with tmr0 := { State.reset.tmr0 with counter := 0xFF } }).intc.t0f = true
    ∧ (countTimer0 { State.reset with tmr0 := { State.reset.tmr0 with counter := 0xFE } }).tmr0.counter = 0xFF := by decide

/-- A time-out while running: PC, stack, TO, control registers. -/
theorem test_wdt_reset_running :
    (wdtReset { State.reset with pc := 0x123, stack := [1], acc := 0x77, wdts := 0, mode := .running }).pc = 0x000
    ∧ (wdtReset { State.reset with acc := 0x77 }).acc = 0x77
    ∧ (wdtReset { State.reset with wdts := 0 }).wdts = 0x07
    ∧ (wdtReset { State.reset with acc := 0x77 }).status.timeOut = true := by decide

/-- RES while halted: TO = 0, PDF = 1, running. -/
theorem test_res_halted :
    (resReset { State.reset with mode := .halted, status := { flags true true true true with timeOut := true } }).status
      = { flags true true true true with pdf := true }
    ∧ (resReset { State.reset with mode := .halted }).mode = .running := by decide

/-- A falling edge on INT sets EIF with MISC[7:6] = 10 (reset); a rising one does not. -/
theorem test_int_edge :
    (applyEvent { State.reset with pins := { State.reset.pins with paDriven := 0xFF } } (.pinA 1 true false)).intc.eif = true
    ∧ (applyEvent { State.reset with
                                   pins := { State.reset.pins with paLevel := 0xFD, paDriven := 0xFF }
                                   seen := { State.reset.seen with pa := 0xFD } } (.pinA 1 true true)).intc.eif = false := by decide

/-- Timer 0 on in pulse width mode, T0E = 0, PSC = 0. -/
def pulseState (p : PulsePhase) : State :=
  { State.reset with tmr0 := { State.reset.tmr0 with on := true, mode := 3, psc := 0, pulse := p } }

/-- Pulse width mode, T0E = 0: the fall is pending until the timer clock, which starts the measurement; while it lasts each
clock counts; the rise is pending until the timer clock, which clears T0ON. -/
theorem test_pulse_width :
    (transitionTimer0 true false (pulseState .idle)).tmr0.pulse = .starting
    ∧ (transitionTimer0 true true (pulseState .idle)).tmr0.pulse = .idle
    ∧ (systemClock (pulseState .measuring)).tmr0.counter = 1
    ∧ (transitionTimer0 true true (pulseState .measuring)).tmr0.on = true
    ∧ (transitionTimer0 true true (pulseState .measuring)).tmr0.pulse = .stopping := by decide

/-- The timer clock that sees the end of the pulse clears T0ON, whether or not it counts. -/
theorem test_pulse_width_end : (systemClock (pulseState .stopping)).tmr0.on = false := by
  cases h : Config.freePulse 0 1 <;>
    simp [systemClock, systemClockTimer0, tickTimer0, pulseTimer0, pulseState, PulsePhase.counts, PulsePhase.staysOn,
      PulsePhase.next, State.reset, modeTimer, modePulseWidth, modeEventCount, seeEvent0, countTimer0, h]

/-- Event count mode with T0E = 0 on PA1, low before, at a count of FFH (TMR0C = 50H). -/
def eventState (mode : CoreMode) : State :=
  { State.reset with
    mode := mode
    tmr0 := { State.reset.tmr0 with on := true, mode := 1, psc := 7, counter := 0xFF, preload := 0x9B }
    pins := { State.reset.pins with paLevel := 0xFD, paDriven := 0x02 }
    seen := { State.reset.seen with pa := 0xFD } }

/-- File 95, 2.10: pin 0 to 1 is one count, which the next system clock sees, whatever the prescaler is; 1 to 0 is none. -/
theorem test_event_count :
    (applyEvent (eventState .running) (.pinA 1 true true)).tmr0.counter = 0xFF
    ∧ (systemClock (applyEvent (eventState .running) (.pinA 1 true true))).tmr0.counter = 0x9B
    ∧ (systemClock (systemClock (applyEvent (applyEvent (eventState .running) (.pinA 1 true true))
        (.pinA 1 true false)))).tmr0.counter = 0x9B := by decide

/-- File 95, 2.11: in HALT the overflow of an event count requests and wakes at once. -/
theorem test_event_count_halted :
    (applyEvent (eventState .halted) (.pinA 1 true true)).intc.t0f = true
    ∧ (applyEvent (eventState .halted) (.pinA 1 true true)).mode = .running := by decide

/-- Under the option RC with f_SYS/4 output PB6 is low in one half of the divider's period and released in the other. -/
theorem test_clock_output : ∀ p ∈ [(0#2, false), (1#2, false), (2#2, true), (3#2, true)],
    getBit (pbLevel { withOptions { defaultOptions with osc := .rcClockOut } State.reset with oscDivider := p.1 }) 6 = p.2 := by
  decide

/-- The memory of the state after reset is in canonical form. -/
theorem test_reset_memory : Memory.wf 128 State.reset.ram = true ∧ Memory.wf 2048 State.reset.program = true
    ∧ Memory.wf 128 State.reset.eeprom.cells = true := by decide

/-- The word placed by withFetchWord is run by the next step: MOV A,5AH. -/
theorem test_fetch_word : ofNext (step (State.reset.withFetchWord 16 0x0F5A)) (fun t => (t.acc, t.pc, t.cycles))
    = some (0x5A, 0x001, 0) := by decide

/-! ## The EEPROM (file 95, 2.12) -/

/-- An idle EEPROM with cell 12H = 33H and its counter at 12H. -/
def idleEeprom : Eeprom := { State.reset.eeprom with cells := Memory.write [] 0x12 0x33, counter := 0x12 }

/-- The byte write of 5AH to 12H (address byte 92H: bit 7 is ignored) stores it and leaves the counter at 13H. -/
theorem test_eeprom_write :
    (idleEeprom.follow 0 1 (startLevels ++ byteLevels 0xA0 ++ bitLevels false ++ byteLevels 0x92 ++ bitLevels false
      ++ byteLevels 0x5A ++ bitLevels false ++ stopLevels)).cells = [(0x12, 0x5A#8)] := by decide +kernel

/-- A current address read of 33H: the counter is one further. -/
theorem test_eeprom_read :
    (idleEeprom.follow 0 1 (startLevels ++ byteLevels 0xA1 ++ bitLevels false ++ byteLevels 0x33)).counter = 0x13 := by decide

/-! ## Ports (60_exceptions.md R380, R382) -/

/-- PAC = 0FH, latch 33H, the outside holding all pins low: the low half reads the pins, the high half the latch. -/
theorem test_port_read : select 0x0F (paLevel { State.reset with
      ports := { State.reset.ports with pac := 0x0F, pa := 0x33 }
      pins := { State.reset.pins with paLevel := 0x00, paDriven := 0x0F } }) 0x33 = 0x30 := by decide

/-! ## Witnesses: the hypotheses of each statement that has any can be met together -/

/-- A next state seen is a next state. -/
theorem exists_next {α : Type} {o : Host.Outcome State Fault Refusal} {f : State → α} {v : α} (h : ofNext o f = some v) :
    ∃ t, o = .next t ∧ f t = v := by
  cases o with
  | next t => exact ⟨t, rfl, by simpa [ofNext] using h⟩
  | fault r => cases h
  | refused r => cases h

/-- The state after reset about to fetch a word. -/
def fetching (w : Nat) (s : State) : State := s.withFetchWord 16 w

/-- Every interrupt enabled and requested, with a given stack. -/
def interrupted (stack : List PAddr) : State := { State.reset with stack := stack, intc := intc 0x7F true true }

/-- Only source k requested and enabled. -/
def requested (k : IrqSource) : State :=
  { State.reset with
    stack := [1, 2, 3]
    intc := Interrupts.setFlag { intc 0x0F true false with emi := true } true k }

theorem witness_EncodeDecodeRoundTrip : decode 0x0F5A#15 = .ok (.movAX 0x5A#8) := by rfl

theorem witness_UnassignedWordsRefused_table : ([(0x4001#15, Instr.halt), (0x0000#15, .nop)].map (·.1)).Nodup := by decide

theorem witness_UnassignedWordsRefused_low : (fetching 0x0007 State.reset).mode = .running
    ∧ acceptable (fetching 0x0007 State.reset) = none
    ∧ ∃ e, decodeWith (fetching 0x0007 State.reset).cfg.enc (fetchWord (fetching 0x0007 State.reset)) = .error e :=
  ⟨by decide, by decide, .unassigned 0x0007#15, by rfl⟩

theorem witness_UnassignedWordsRefused_high : (fetching 0x7FFF State.reset).mode = .running
    ∧ acceptable (fetching 0x7FFF State.reset) = none
    ∧ ∃ e, decodeWith (fetching 0x7FFF State.reset).cfg.enc (fetchWord (fetching 0x7FFF State.reset)) = .error e :=
  ⟨by decide, by decide, .unassigned 0x7FFF#15, by rfl⟩

theorem witness_StepRunsDecodedInstruction : State.reset.mode = .running ∧ acceptable State.reset = none
    ∧ decodeWith State.reset.cfg.enc (pmRead State.reset State.reset.pc) = .ok .nop
    ∧ ∃ t, exec .nop (State.reset.withPc (State.reset.pc + 1#11)) = .next t ∧ timerModeClash State.reset t = false :=
  ⟨by decide, by decide, by rfl, _, rfl, by decide⟩

/-- Both timers on in timer mode, ACC = 10H: the mode bits of ACC differ. -/
def timersOn : State :=
  { State.reset with acc := 0x10, tmr0 := { State.reset.tmr0 with on := true, mode := 2 },
                     tmr1 := { State.reset.tmr1 with on := true, mode := 2 } }

theorem witness_StepRunsDecodedInstruction_clash : (fetching 0x008E timersOn).mode = .running
    ∧ acceptable (fetching 0x008E timersOn) = none
    ∧ decodeWith (fetching 0x008E timersOn).cfg.enc (pmRead (fetching 0x008E timersOn) (fetching 0x008E timersOn).pc) = .ok (.movMA 0x0E#7)
    ∧ ∃ t, exec (.movMA 0x0E#7) ((fetching 0x008E timersOn).withPc 0x001) = .next t
      ∧ timerModeClash (fetching 0x008E timersOn) t = true :=
  ⟨by decide, by decide, by rfl, _, rfl, by decide⟩

theorem witness_TimerModeChangeRefused_tmr0c :
    decodeWith (fetching 0x008E timersOn).cfg.enc (fetchWord (fetching 0x008E timersOn)) = .ok (.movMA 0x0E#7)
    ∧ target (fetching 0x008E timersOn) 0x0E#7 = .reg .tmr0c ∧ (fetching 0x008E timersOn).tmr0.on = true
    ∧ (fetching 0x008E timersOn).acc.extractLsb' 6 2 ≠ (fetching 0x008E timersOn).tmr0.mode :=
  ⟨by rfl, by decide, by decide, by decide⟩

theorem witness_TimerModeChangeRefused_tmr1c :
    decodeWith (fetching 0x0091 timersOn).cfg.enc (fetchWord (fetching 0x0091 timersOn)) = .ok (.movMA 0x11#7)
    ∧ acceptable (fetching 0x0091 timersOn) = none
    ∧ target (fetching 0x0091 timersOn) 0x11#7 = .reg .tmr1c ∧ (fetching 0x0091 timersOn).tmr1.on = true
    ∧ (fetching 0x0091 timersOn).acc.extractLsb' 6 2 ≠ (fetching 0x0091 timersOn).tmr1.mode :=
  ⟨by rfl, by decide, by decide, by decide, by decide⟩

/-- Halted, on a part with an EEPROM that is writing, its lines high. -/
def sleeping : State :=
  { State.reset with
    mode := .halted
    cfg := { defaultConfig with part := .ht46rs03pe }
    eeprom := { State.reset.eeprom with busy := 3 } }

theorem witness_HaltedCoreWaits : sleeping.mode = .halted ∧ sleeping.cycles = 0 ∧ sleeping.script = [] ∧ Settled sleeping :=
  ⟨by decide, by decide, by decide, by decide, by decide, by decide⟩

theorem witness_AcceptanceRule : (interrupted [1, 2, 3]).mode = .running
    ∧ acceptable (interrupted [1, 2, 3]) = some .external
    ∧ (∀ k ∈ [IrqSource.external, .timer0, .timer1, .comparator], acceptable (requested k) = some k)
    ∧ acceptable (interrupted [1, 2, 3, 4]) = none
    ∧ ∃ t, decodeWith (interrupted [1, 2, 3, 4]).cfg.enc (fetchWord (interrupted [1, 2, 3, 4])) = .ok .nop
      ∧ exec .nop (afterFetch (interrupted [1, 2, 3, 4])) = .next t :=
  ⟨by decide, by decide, by decide, by decide, _, by rfl, rfl⟩

theorem witness_InterruptEntry : ∀ k ∈ [IrqSource.external, .timer0, .timer1, .comparator],
    (requested k).mode = .running ∧ acceptable (requested k) = some k := by decide

theorem witness_ReturnsUndoEntryAndCall : (requested .timer0).stack.length < 4 := by decide

theorem witness_StackFullHoldsOff : (interrupted [1, 2, 3, 4]).stack.length = 4 ∧ (interrupted [1, 2, 3, 4]).intc.emi = true
    ∧ (interrupted [1, 2, 3, 4]).intc.flag .comparator = true ∧ (interrupted [1, 2, 3, 4]).intc.enable .comparator = true
    ∧ acceptable (interrupted [1, 2, 3]) = some .external := by decide

theorem witness_DataMemoryLocations : Memory.wf 128 (ramState 0 5).ram = true
    ∧ target (ramState 0 5) 0x40#7 = .ram ∧ target (ramState 0 5) 0x7F#7 = .ram
    ∧ effAddr (ramState 0 5) 0x7F#7 ≠ effAddr (ramState 0 5) 0x40#7
    ∧ (∀ m ∈ [0x02#7, 0x04#7, 0x1B#7, 0x3F#7], target (ramState 0 5) m = .undefined)
    ∧ (∀ m ∈ [0x01#7, 0x05#7, 0x1A#7], target (ramState 0 5) m ≠ .undefined ∧ target (ramState 0 5) m ≠ .ram) := by decide

theorem witness_RegisterReadBack : State.reset.cfg.wf = true := by decide

theorem witness_IndirectAddressing : locate State.reset.cfg 0x00#7 = .reg .iar
    ∧ locate State.reset.cfg State.reset.mp = .reg .iar
    ∧ locate State.reset.cfg ({ State.reset with mp := 0x40 } : State).mp ≠ .reg .iar := by decide

theorem witness_Timer0DataRegister : target State.reset 0x0D#7 = .reg .tmr0
    ∧ ({ State.reset with tmr0 := { State.reset.tmr0 with counter := 0xFF } } : State).tmr0.counter = 0xFF#8 := by decide

theorem witness_Timer1DataRegisters : target State.reset 0x10#7 = .reg .tmr1l ∧ target State.reset 0x0F#7 = .reg .tmr1h := by
  decide

/-- RAM, a register and an undefined address as destinations; also for LogicToMemory, DecimalAdjust,
CountsAndRotatesToMemory, StoresWithoutReading, SwapAndBitWrites. -/
theorem witness_ArithmeticToMemory : ∀ m ∈ [0x40#7, 0x7F#7, 0x05#7, 0x06#7, 0x0F#7, 0x02#7],
    Memory.wf 128 (ramState 0 5).ram = true ∧ target (ramState 0 5) m ≠ .reg .status := by decide

theorem witness_DecimalAdjust : Memory.wf 128 (ramState 0x9A 5).ram = true
    ∧ target (ramState 0x9A 5) 0x40#7 ≠ .reg .status := by decide

theorem witness_DecimalAdjustGivesBcdSum : isBcd (ramState 0x99 0).acc ∧ isBcd 0x99#8 ∧ isBcd 0x00#8
    ∧ target (ramState 0x99 0) 0x40#7 = .ram ∧ Memory.wf 128 (ramState 0x99 0).ram = true :=
  ⟨⟨by decide, by decide⟩, ⟨by decide, by decide⟩, ⟨by decide, by decide⟩, by decide, by decide⟩

theorem witness_LogicToMemory : Memory.wf 128 (ramState 1 5).ram = true ∧ target (ramState 1 5) 0x40#7 ≠ .reg .status := by
  decide

theorem witness_CountsAndRotatesToMemory : Memory.wf 128 (ramState 1 5).ram = true
    ∧ target (ramState 1 5) 0x40#7 ≠ .reg .status ∧ target (ramState 1 5) 0x0A#7 = .reg .status := by decide

theorem witness_StoresWithoutReading : Memory.wf 128 (ramState 1 5).ram = true := by decide

theorem witness_SwapAndBitWrites : Memory.wf 128 (ramState 1 5).ram = true := by decide

/-- STATUS directly and through IAR. -/
theorem witness_FlagWritersToStatus : target State.reset 0x0A#7 = .reg .status
    ∧ target { State.reset with mp := 0x0A } 0x00#7 = .reg .status
    ∧ Instr.incM 0x0A#7 ∈ [Instr.incM 0x0A#7] := by decide

theorem witness_SkipTests : (memValue (ramState 0 0x00) 0x40#7).toNat = 0 ∧ (memValue (ramState 0 0x80) 0x40#7).toNat ≠ 0
    ∧ (memValue (ramState 0 0x80) 0x40#7).getLsbD 7 = true ∧ (memValue (ramState 0 0x7F) 0x40#7).getLsbD 7 = false
    ∧ (memValue (ramState 0 0x01) 0x40#7).getLsbD 0 = true ∧ (memValue (ramState 0 0xFE) 0x40#7).getLsbD 0 = false := by decide

/-- The result is zero, and is not. -/
theorem witness_SkipLoads : ((memValue (ramState 0 0xFF) 0x40#7).toNat + 1) % 256 = 0
    ∧ ((memValue (ramState 0 0x01) 0x40#7).toNat + 255) % 256 = 0
    ∧ ((memValue (ramState 0 0x02) 0x40#7).toNat + 255) % 256 ≠ 0 := by decide

theorem witness_SkipModifies : Memory.wf 128 (ramState 0 0xFF).ram = true ∧ target (ramState 0 0xFF) 0x40#7 ≠ .reg .pcl
    ∧ ((memValue (ramState 0 0xFF) 0x40#7).toNat + 1) % 256 = 0 ∧ target (ramState 0 0xFF) 0x06#7 = .reg .pcl := by decide

/-- SIZ on PCL with the result 00H, SDZ on PCL with the result 10H. -/
theorem witness_SkipModifies_pcl : ((memValue { State.reset with pc := 0x1FF } 0x06#7).toNat + 1) % 256 = 0
    ∧ ((memValue (ramState 0 0) 0x06#7).toNat + 255) % 256 = 0x10 := by decide

theorem witness_JumpCallNopAndHalt : ({ State.reset with stack := [1, 2, 3] } : State).stack.length < 4
    ∧ ({ State.reset with stack := [1, 2, 3, 4] } : State).stack = [1, 2, 3, 4] := by decide

theorem witness_Returns : ({ State.reset with stack := [1, 2] } : State).stack = [1] ++ [2] ∧ State.reset.stack = [] := by
  decide

theorem witness_ComputedJumps : target State.reset 0x06#7 = .reg .pcl
    ∧ target { State.reset with mp := 0x06 } 0x00#7 = .reg .pcl := by decide

theorem witness_TableReads : Memory.wf 128 (ramState 0 5).ram = true
    ∧ (Instr.tabrdcM 0x40#7, (ramState 0 5).pc.toNat / 256) ∈ [(Instr.tabrdcM 0x40#7, 0), (.tabrdlM 0x40#7, 7)] := by decide

theorem witness_WatchdogClears : (timedOut false .neither).cfg.opt.wdtEnabled = true
    ∧ (timedOut false .neither).cfg.opt.twoClears = false ∧ (timedOut true .first).cfg.opt.wdtEnabled = true
    ∧ (timedOut true .first).cfg.opt.twoClears = true ∧ (timedOut true .first).wdt.last ≠ .second
    ∧ (timedOut true .first).wdt.last = .first := by decide

theorem witness_WatchdogDisabled : State.reset.cfg.opt.wdtEnabled = false := by decide

theorem witness_OnlyHaltHalts : (fetching 0x0002 State.reset).mode = .running
    ∧ ∃ t, step (fetching 0x0002 State.reset) = .next t ∧ t.mode = .halted :=
  ⟨by decide, exists_next (f := fun t => t.mode) (by decide)⟩

/-- SET [0AH].5, which aims at TO. -/
theorem witness_TimeOutAndPdfProtected : Instr.setMi 0x0A#7 5#3 ∉ [Instr.clrWdt, .clrWdt1, .clrWdt2, .halt]
    ∧ ∃ t, exec (.setMi 0x0A#7 5#3) State.reset = .next t := ⟨by decide, _, rfl⟩

/-- A halted state between two steps: four return addresses, a RAM byte, a program word, a pulse being measured. -/
def measuringState : State :=
  { ramState 1 5 with
    mode := .halted
    status := { flags true false true false with pdf := true }
    stack := [1, 2, 3, 4]
    program := Memory.write [] 0x7FF 0x7FFF#15
    tmr0 := { State.reset.tmr0 with on := true, mode := 3, pulse := .measuring } }

theorem witness_StepKeepsInvariant : measuringState.Inv ∧ ∃ t, step measuringState = .next t :=
  ⟨{ stackDepth := by decide, ramForm := by decide, ramBase := by decide, programForm := by decide, cellsForm := by decide,
     cyclesRun := by decide, haltedFlags := by decide, noTimeOut := by decide, pulse0 := by decide,
     pulse1 := by decide, event0 := by decide, event1 := by decide }, _, rfl⟩

theorem witness_StepKeepsConfigAndProgram : ∃ t, step measuringState = .next t := ⟨_, rfl⟩

theorem witness_TimerOverflows : ({ State.reset with tmr0 := { State.reset.tmr0 with counter := 0xFF } } : State).tmr0.counter = 0xFF#8
    ∧ ({ State.reset with tmr1 := { State.reset.tmr1 with counter := 0xFFFF } } : State).tmr1.counter = 0xFFFF#16 := by decide

/-- The reset state's counters equal their preloads, 00H and 0000H; the last n of the first clause and the n of the second. -/
theorem witness_TimerPeriods : State.reset.tmr0.counter = State.reset.tmr0.preload
    ∧ 255 < 256 - State.reset.tmr0.preload.toNat ∧ 256 = 256 - State.reset.tmr0.preload.toNat
    ∧ State.reset.tmr1.counter = State.reset.tmr1.preload
    ∧ 65535 < 65536 - State.reset.tmr1.preload.toNat ∧ 65536 = 65536 - State.reset.tmr1.preload.toNat := by decide

theorem witness_PrescalerRatio : timersOn.tmr0.on = true ∧ timersOn.tmr0.mode = modeTimer ∧ timersOn.tmr0.counter.toNat < 255
    ∧ ({ timersOn with tmr0 := { timersOn.tmr0 with mode := 1 } } : State).tmr0.mode = modeEventCount
    ∧ ({ timersOn with tmr0 := { timersOn.tmr0 with mode := 1 } } : State).tmr0.event = false := by decide

theorem witness_PrescalerRatio_event : ∀ s ∈ [({ timersOn with
      tmr0 := { timersOn.tmr0 with mode := 1, event := true, counter := 0xFE } } : State)],
    s.tmr0.on = true ∧ s.tmr0.mode = modeEventCount ∧ s.tmr0.event = true ∧ s.tmr0.counter.toNat < 255 := by decide

/-- Timer 0 (1) on in a mode, the pin TMR0 (TMR1) having just fallen. -/
def pinFell (mode : BitVec 2) (edge : Bool) (pulse : PulsePhase) : State :=
  { State.reset with
    tmr0 := { State.reset.tmr0 with on := true, mode := mode, edge := edge, pulse := pulse, counter := 0xFF }
    tmr1 := { State.reset.tmr1 with on := true, mode := mode, edge := edge, pulse := pulse, counter := 0xFFFF }
    pins := { State.reset.pins with paLevel := 0xFD, paDriven := 0x02, pbLevel := 0xFD, pbDriven := 0x02 } }

theorem witness_TimerPinEdges : ∀ p ∈ [(1#2, false, PulsePhase.idle), (1#2, true, .idle), (3#2, false, .idle),
      (3#2, false, .measuring), (3#2, true, .starting), (3#2, true, .measuring), (3#2, true, .stopping)],
    (pinFell p.1 p.2.1 p.2.2).tmr0.on = true ∧ (pinFell p.1 p.2.1 p.2.2).tmr1.on = true
      ∧ getBit (paLevel (pinFell p.1 p.2.1 p.2.2)) 1 ≠ getBit (pinFell p.1 p.2.1 p.2.2).seen.pa 1
      ∧ getBit (pbLevel (pinFell p.1 p.2.1 p.2.2)) 1 ≠ (pinFell p.1 p.2.1 p.2.2).seen.pb1
      ∧ (getBit (paLevel (pinFell p.1 p.2.1 p.2.2)) 1 = (pinFell p.1 p.2.1 p.2.2).tmr0.edge ↔ p.2.1 = false)
      ∧ (getBit (pbLevel (pinFell p.1 p.2.1 p.2.2)) 1 = (pinFell p.1 p.2.1 p.2.2).tmr1.edge ↔ p.2.1 = false) := by decide

theorem witness_TimerPinEdges_counters : (pinFell 1 true .idle).tmr0.counter = 0xFF#8
    ∧ (pinFell 1 true .idle).tmr1.counter = 0xFFFF#16
    ∧ ({ pinFell 1 true .idle with tmr0 := timersOn.tmr0 } : State).tmr0.counter ≠ 0xFF#8 := by decide

/-- Event count mode, a fall with TnE = 1: running and halted, with no event and with one to be seen. -/
theorem witness_TimerPinEdges_events : ∀ p ∈ [(CoreMode.running, false), (.running, true), (.halted, false), (.halted, true)],
    ∀ s ∈ [({ pinFell 1 true .idle with
      mode := p.1, tmr0 := { (pinFell 1 true .idle).tmr0 with event := p.2 },
      tmr1 := { (pinFell 1 true .idle).tmr1 with event := p.2 } } : State)],
    s.mode = p.1 ∧ s.tmr0.on = true ∧ s.tmr1.on = true ∧ s.tmr0.mode = 0b01#2 ∧ s.tmr1.mode = 0b01#2
      ∧ s.tmr0.event = p.2 ∧ s.tmr1.event = p.2
      ∧ getBit (paLevel s) 1 ≠ getBit s.seen.pa 1 ∧ getBit (paLevel s) 1 ≠ s.tmr0.edge
      ∧ getBit (pbLevel s) 1 ≠ s.seen.pb1 ∧ getBit (pbLevel s) 1 ≠ s.tmr1.edge := by decide

/-- The counted signal has risen, in mode 00. -/
theorem witness_TimerPinEdges_countSource : ∀ s ∈ [({ State.reset with
      tmr0 := { State.reset.tmr0 with on := true, counter := 0xFF }, pins := { State.reset.pins with cntSrc := true } } : State)],
    s.tmr0.on = true ∧ s.tmr0.mode = 0b00#2 ∧ s.pins.cntSrc ≠ s.seen.cnt ∧ s.pins.cntSrc ≠ s.tmr0.edge
      ∧ s.tmr0.counter = 0xFF#8 := by decide

theorem witness_PulseWidthMeasurement_timer0 (p : PulsePhase) :
    (pulseState p).tmr0.on = true ∧ (pulseState p).tmr0.mode = 0b11#2 ∧ (pulseState p).tmr0.pulse = p
      ∧ (pulseState p).tmr0.counter = 0 := ⟨rfl, rfl, rfl, rfl⟩

theorem witness_PulseWidthMeasurement_timer1 (p : PulsePhase) :
    (pinFell 3 false p).tmr1.on = true ∧ (pinFell 3 false p).tmr1.mode = 0b11#2 ∧ (pinFell 3 false p).tmr1.pulse = p :=
  ⟨rfl, rfl, rfl⟩

theorem witness_PulseWidthMeasurement_halted : sleeping.mode = .halted := by decide

/-- Both timers and the watchdog running, the last counts before an overflow to come: Timer 0 at PSC 4 from phase 127. -/
def quiet : State :=
  { withOptions (watchdogOptions false) timersOn with
    cycles := 3
    tmr0 := { timersOn.tmr0 with counter := 0xFE, prescaler := 127 }
    tmr1 := { timersOn.tmr1 with counter := 0xFFFC }
    wdt := { timersOn.wdt with count := 0xFC } }

theorem witness_AgentsRunTheCycles : quiet.mode = .running ∧ quiet.script = [] ∧ Settled quiet
    ∧ (quiet.tmr0.on = true → quiet.tmr0.mode ≠ modePulseWidth) ∧ (quiet.tmr1.on = true → quiet.tmr1.mode ≠ modePulseWidth)
    ∧ quiet.tmr0.event = false ∧ quiet.tmr1.event = false
    ∧ quiet.tmr0.counter.toNat + timer0Counts quiet quiet.cycles = 255
    ∧ quiet.tmr1.counter.toNat + timer1Counts quiet quiet.cycles = 65535
    ∧ quiet.wdt.count.toNat + watchdogClocks quiet quiet.cycles = 255 :=
  ⟨by decide, by decide, ⟨by decide, by decide, by decide⟩, by decide, by decide, by decide, by decide, by decide, by decide,
    by decide⟩

/-- Twelve system clocks from phase 127 at PSC 4 (1:16) make one count, and Timer 1 and the watchdog make three. -/
theorem test_agents_run : (runAgents quiet).tmr0.counter = 0xFF ∧ (runAgents quiet).tmr1.counter = 0xFFFF
    ∧ (runAgents quiet).wdt.count = 0xFF := by decide +kernel

/-- The shortest and the longest period. -/
theorem witness_WatchdogPeriod : (withOptions (watchdogOptions false) State.reset).cfg.opt.wdtEnabled = true
    ∧ (withOptions (watchdogOptions false) State.reset).wdt.count = 0
    ∧ (withOptions (watchdogOptions false) State.reset).wdt.prescaler = 0
    ∧ 32767 < 256 * 2 ^ ((withOptions (watchdogOptions false) State.reset).wdts.toNat % 8)
    ∧ 32768 = 256 * 2 ^ ((withOptions (watchdogOptions false) State.reset).wdts.toNat % 8) := by decide

theorem witness_ResetColumns : State.reset.mode = .running ∧ sleeping.mode = .halted ∧ State.reset.eeprom.busy = 0 := by
  decide

/-- Halted, EMI as given, Timer 0 enabled, PA3 with its wake-up option and just fallen. -/
def dozing (emi : Bool) : State :=
  { State.reset with
    mode := .halted
    cfg := { defaultConfig with opt := { defaultOptions with paWake := 0x08 } }
    intc := { State.reset.intc with emi := emi, et0i := true }
    pins := { State.reset.pins with paLevel := 0xF7, paDriven := 0xFF } }

theorem witness_WakeUps_accepted : (dozing true).mode = .halted ∧ (dozing true).intc.flag .timer0 = false
    ∧ acceptable (requestInterrupt .timer0 (dozing true)) = some .timer0
    ∧ (requestInterrupt .timer0 (dozing true)).intc.flag .timer0 = true := by decide

theorem witness_WakeUps_resumed : acceptable (requestInterrupt .timer0 (dozing false)) = none
    ∧ decodeWith (dozing false).cfg.enc (pmRead (dozing false) (dozing false).pc) = .ok .nop
    ∧ ∃ u, exec .nop ((requestInterrupt .timer0 (dozing false)).withPc ((dozing false).pc + 1#11)) = .next u
      ∧ timerModeClash (requestInterrupt .timer0 (dozing false)) u = false := ⟨by decide, by rfl, _, rfl, by decide⟩

theorem witness_WakeUps_pin : (3 < 8 ∧ (dozing true).cfg.opt.paWake.getLsbD 3 = true ∧ (0xFF#8).getLsbD 3 = true
      ∧ (0xF7#8).getLsbD 3 = false)
    ∧ (∀ i, i < 8 → (dozing true).cfg.opt.paWake.getLsbD i = true → (0xF7#8).getLsbD i = true → (0x08#8).getLsbD i = true)
    ∧ (dozing true).seen.pa.getLsbD 3 = true ∧ (paLevel (dozing true)).getLsbD 3 = false := by decide

/-- PA3 and PB3: as outputs, as driven inputs, and as undriven inputs with a pull-up. -/
def pinCase (control driven : Byte) : State :=
  { State.reset with
    cfg := { defaultConfig with opt := { defaultOptions with paPull := 0xFF, pbPull := 0xFF } }
    ports := { State.reset.ports with pac := control, pbc := control }
    pins := { State.reset.pins with paLevel := 0x00, paDriven := driven, pbLevel := 0x00, pbDriven := driven } }

theorem witness_PortReads_output : getBit (paAnalog (pinCase 0x00 0x00)) 3 = false
    ∧ getBit (pbOff (pinCase 0x00 0x00)) 3 = false ∧ eepromOnPortB (pinCase 0x00 0x00) = false
    ∧ getBit (pinCase 0x00 0x00).ports.pac 3 = false ∧ getBit (pinCase 0x00 0x00).ports.pbc 3 = false := by decide

theorem witness_PortReads_driven : getBit (paAnalog (pinCase 0xFF 0xFF)) 3 = false
    ∧ getBit (pbOff (pinCase 0xFF 0xFF)) 3 = false ∧ eepromOnPortB (pinCase 0xFF 0xFF) = false
    ∧ getBit (pinCase 0xFF 0xFF).ports.pac 3 = true ∧ getBit (pinCase 0xFF 0xFF).ports.pbc 3 = true
    ∧ getBit (pinCase 0xFF 0xFF).pins.paDriven 3 = true ∧ getBit (pinCase 0xFF 0xFF).pins.pbDriven 3 = true := by decide

theorem witness_PortReads_pulled : getBit (paAnalog (pinCase 0xFF 0x00)) 3 = false
    ∧ getBit (pbOff (pinCase 0xFF 0x00)) 3 = false ∧ eepromOnPortB (pinCase 0xFF 0x00) = false
    ∧ getBit (pinCase 0xFF 0x00).ports.pac 3 = true ∧ getBit (pinCase 0xFF 0x00).ports.pbc 3 = true
    ∧ getBit (pinCase 0xFF 0x00).pins.paDriven 3 = false ∧ getBit (pinCase 0xFF 0x00).pins.pbDriven 3 = false
    ∧ getBit (pinCase 0xFF 0x00).cfg.opt.paPull 3 = true ∧ getBit (pinCase 0xFF 0x00).cfg.opt.pbPull 3 = true := by decide

theorem witness_PortWrites : target State.reset 0x12#7 = .reg .pa ∧ target State.reset 0x14#7 = .reg .pb
    ∧ getBit (paAnalog (pinCase 0 0)) 0 = false ∧ (pinCase 0 0).cfg.opt.pa0Pfd = false
    ∧ getBit (pinCase 0 0).ports.pac 0 = false ∧ getBit (pbOff (pinCase 0 0)) 0 = false
    ∧ eepromOnPortB (pinCase 0 0) = false ∧ getBit (pinCase 0 0).ports.pbc 0 = false := by decide

theorem witness_PortReads_outputs : (withOptions { defaultOptions with pa0Pfd := true } (pinCase 0 0)).cfg.opt.pa0Pfd = true
    ∧ getBit (withOptions { defaultOptions with pa0Pfd := true } (pinCase 0 0)).ports.pac 0 = false
    ∧ (withOptions { defaultOptions with osc := .rcClockOut } (pinCase 0 0)).cfg.opt.osc = .rcClockOut
    ∧ (withOptions { defaultOptions with osc := .crystal } (pinCase 0 0)).cfg.opt.osc = .crystal := by decide

/-- The EEPROM on port B and PB5 an input, driven from outside; then the other pins of port B are still port pins. -/
def eepromPart (wiring : EepromWiring) (s : State) : State :=
  { s with cfg := { s.cfg with part := .ht46rs03pe, eepromWiring := wiring } }

theorem witness_EepromLines : eepromOnPortB (eepromPart .portB (pinCase 0xFF 0xFF)) = true
    ∧ getBit (eepromPart .portB (pinCase 0xFF 0xFF)).ports.pbc 4 = true
    ∧ getBit (eepromPart .portB (pinCase 0xFF 0xFF)).ports.pbc 5 = true
    ∧ getBit (eepromPart .portB (pinCase 0xFF 0xFF)).pins.pbDriven 5 = true
    ∧ getBit (eepromPart .portB (pinCase 0x00 0xFF)).ports.pbc 5 = false
    ∧ hasEeprom (eepromPart .ownPins State.reset) = true ∧ eepromOnPortB (eepromPart .ownPins State.reset) = false
    ∧ hasEeprom State.reset = false := by decide

/-- PB4 as SDA, an output with latch 1, the EEPROM pulling it low or not. -/
def sdaPulled (pull : Bool) : State :=
  eepromPart .portB { State.reset with
    ports := { State.reset.ports with pbc := 0xEF }
    eeprom := { State.reset.eeprom with pull := pull } }

/-- The same with the EEPROM silent and the outside driving the line low. -/
def sdaDrivenLow : State :=
  { sdaPulled false with pins := { State.reset.pins with pbLevel := 0xEF, pbDriven := 0x10 } }

/-- R400: a read of PB.4 gives 0 while the EEPROM pulls SDA low, and 1 while nothing does. -/
theorem test_sda_read : getBit (readPb (sdaPulled true)) 4 = false ∧ getBit (readPb (sdaPulled false)) 4 = true := by
  have h : ∀ b, pbAnalog (sdaPulled b) ||| pbOscillator (sdaPulled b) = 0#8
      ∧ comparatorOnPin (sdaPulled b) = false ∧ eepromOnPortB (sdaPulled b) = true
      ∧ (sdaPulled b).ports.pbc = 0xEF#8 ∧ (sdaPulled b).ports.pb = 0xFF#8 ∧ (sdaPulled b).eeprom.pull = b := by decide
  simp [readPb, select, putBit, bitAt, getBit, h]

/-- R125, R380: PB.4 as an output gives its latch, 1, though the outside drives the line low. -/
theorem test_sda_read_output : sdaLine sdaDrivenLow = false ∧ getBit (readPb sdaDrivenLow) 4 = true := by
  have h : pbAnalog sdaDrivenLow ||| pbOscillator sdaDrivenLow = 0#8 ∧ comparatorOnPin sdaDrivenLow = false
      ∧ sdaDrivenLow.eeprom.pull = false ∧ sdaDrivenLow.ports.pbc = 0xEF#8 ∧ sdaDrivenLow.ports.pb = 0xFF#8 := by decide
  exact ⟨by decide, by simp [readPb, select, getBit, h]⟩

theorem witness_PortReads_sda_released : eepromOnPortB (sdaPulled false) = true ∧ (sdaPulled false).eeprom.pull = false
    ∧ getBit (pbOff (sdaPulled false)) 4 = false ∧ getBit (sdaPulled false).ports.pbc 4 = false
    ∧ getBit (sdaPulled true).ports.pbc 4 = false ∧ (sdaPulled true).eeprom.pull = true := by decide

theorem witness_PortReads_beside_eeprom : eepromOnPortB (eepromPart .portB (pinCase 0xFF 0xFF)) = true ∧ (3#3 : BitNo) ≠ 4#3
    ∧ getBit (pbOff (eepromPart .portB (pinCase 0xFF 0xFF))) 3 = false := by decide

/-- The EEPROM sees START on PB4 when the latch bit has gone to 0 with SCL high (R402). -/
theorem test_eeprom_start : (sense { eepromPart .portB State.reset with
      ports := { State.reset.ports with pb := 0xEF, pbc := 0xCF }
      pins := { State.reset.pins with pbDriven := 0xCF } }).eeprom.phase = .receive .device 0 0 := by decide

theorem witness_EepromByteWrite : idleEeprom.phase = .standby ∧ idleEeprom.busy = 0 ∧ idleEeprom.seenSda = true
    ∧ idleEeprom.seenScl = true ∧ Memory.wf 128 idleEeprom.cells = true := by decide

/-- Idle, and with a write under way. -/
theorem witness_EepromRead : idleEeprom.phase = .standby ∧ idleEeprom.seenSda = true ∧ idleEeprom.seenScl = true
    ∧ idleEeprom.busy = 0 ∧ ({ idleEeprom with busy := 1 } : Eeprom).busy ≠ 0 := by decide

end Sys2Proof.Tests
end

section
/-! SUPPORT. What one step of the core can do, said once: the three kinds of step (R14), and that an instruction or an
interrupt entry leaves the configuration, the program and all that belongs to the agents. -/

namespace Sys2Proof.Machine

/-- `t` differs from `s` at most in what is the core's own: the configuration, program memory, the EEPROM, the inputs and what
was seen of them, the PFD flip-flop, the clock output's divider, the events to come and the draw are as before. -/
structure CoreFrame (s t : State) : Prop where
  cfg : t.cfg = s.cfg
  program : t.program = s.program
  pins : t.pins = s.pins
  seen : t.seen = s.seen
  pfd : t.pfd = s.pfd
  oscDivider : t.oscDivider = s.oscDivider
  eeprom : t.eeprom = s.eeprom
  script : t.script = s.script
  draws : t.draws = s.draws

variable {s t u : State}

theorem CoreFrame.refl (s : State) : CoreFrame s s := ⟨rfl, rfl, rfl, rfl, rfl, rfl, rfl, rfl, rfl⟩

theorem CoreFrame.trans (h : CoreFrame s t) (k : CoreFrame t u) : CoreFrame s u where
  cfg := k.cfg.trans h.cfg
  program := k.program.trans h.program
  pins := k.pins.trans h.pins
  seen := k.seen.trans h.seen
  pfd := k.pfd.trans h.pfd
  oscDivider := k.oscDivider.trans h.oscDivider
  eeprom := k.eeprom.trans h.eeprom
  script := k.script.trans h.script
  draws := k.draws.trans h.draws

/-! ## The forms of an instruction -/

variable (s) (m : DAddr)

theorem coreFrame_charge (n : Nat) : CoreFrame s (s.charge n) := by constructor <;> simp

theorem coreFrame_skipIf (b : Bool) : CoreFrame s (s.skipIf b) := by
  rw [State.skipIf_eq]
  constructor <;> simp

theorem coreFrame_memWrite (v : Byte) : CoreFrame s (memWrite s m v) := by constructor <;> simp

theorem coreFrame_afterRead : CoreFrame s (afterRead s m) := by constructor <;> simp

theorem coreFrame_resultToAcc (o : AluOut) : CoreFrame s (resultToAcc s o) := by constructor <;> simp

theorem coreFrame_resultToMem (o : AluOut) : CoreFrame s (resultToMem s m o) := by constructor <;> simp

theorem coreFrame_push (v : PAddr) : CoreFrame s (s.push v) := by
  rw [State.push_eq]
  constructor <;> simp

theorem coreFrame_readToAcc (f : Byte → AluOut) : CoreFrame s (readToAcc f m s) :=
  ((coreFrame_afterRead s m).trans (coreFrame_resultToAcc _ _)).trans (coreFrame_charge _ 1)

theorem coreFrame_readModifyWrite (f : Byte → AluOut) : CoreFrame s (readModifyWrite f m s) :=
  ((coreFrame_afterRead s m).trans (coreFrame_resultToMem _ m _)).trans (coreFrame_charge _ 1)

theorem coreFrame_writeOnly (o : AluOut) : CoreFrame s (writeOnly o m s) :=
  (coreFrame_resultToMem s m o).trans (coreFrame_charge _ 1)

theorem coreFrame_immediateToAcc (o : AluOut) : CoreFrame s (immediateToAcc o s) :=
  (coreFrame_resultToAcc s o).trans (coreFrame_charge _ 1)

theorem coreFrame_testAndSkip (test : Byte → Bool) : CoreFrame s (testAndSkip test m s) :=
  ((coreFrame_afterRead s m).trans (coreFrame_charge _ 1)).trans (coreFrame_skipIf _ _)

theorem coreFrame_loadAndSkip (f : Byte → Byte) : CoreFrame s (loadAndSkip f m s) :=
  (coreFrame_readToAcc s m _).trans (coreFrame_skipIf _ _)

theorem coreFrame_modifyAndSkip (f : Byte → Byte) : CoreFrame s (modifyAndSkip f m s) := by
  unfold modifyAndSkip skipOnZeroResult
  split <;> exact (coreFrame_readModifyWrite s m _).trans (coreFrame_skipIf _ _)

theorem coreFrame_tableRead (a : PAddr) : CoreFrame s (tableRead a m s) := by
  have htblh (t : State) (v : BitVec 7) : CoreFrame t (t.withTblh v) := by constructor <;> simp
  exact ((coreFrame_memWrite s m _).trans (htblh _ _)).trans (coreFrame_charge _ 2)

theorem coreFrame_clearWdt : CoreFrame s (clearWdt s) := by constructor <;> simp [clearWdt]

theorem coreFrame_clearWdtOtherMethod : CoreFrame s (clearWdtOtherMethod s) := by
  unfold clearWdtOtherMethod
  split
  · exact coreFrame_clearWdt s
  · exact .refl s

theorem coreFrame_clearWdtPair (which : WdtLast) : CoreFrame s (clearWdtPair which s) := by
  have hlast (t : State) (w : Watchdog) : CoreFrame t (t.withWdt w) := by constructor <;> simp
  unfold clearWdtPair
  split
  · exact .refl s
  · split
    · refine CoreFrame.trans ?_ (hlast _ _)
      split
      · exact .refl s
      · exact coreFrame_clearWdt s
    · exact coreFrame_clearWdtOtherMethod s

/-! ## The instructions and the interrupt entry -/

/-- Every instruction completes, and leaves what is not the core's own (R310, R136). -/
theorem exec_coreFrame (i : Instr) : ∃ t, exec i s = .next t ∧ CoreFrame s t := by
  cases i with
  | addAM m | adcAM m | subAM m | sbcAM m | andAM m | orAM m | xorAM m | cplaM m | incaM m | decaM m
  | rraM m | rrcaM m | rlaM m | rlcaM m | swapaM m | movAM m =>
    exact ⟨_, rfl, coreFrame_readToAcc s m _⟩
  | addmAM m | adcmAM m | submAM m | sbcmAM m | andmAM m | ormAM m | xormAM m | cplM m | incM m | decM m
  | rrM m | rrcM m | rlM m | rlcM m | swapM m | clrMi m i | setMi m i =>
    exact ⟨_, rfl, coreFrame_readModifyWrite s m _⟩
  | movMA m | clrM m | setM m | daaM m => exact ⟨_, rfl, coreFrame_writeOnly s m _⟩
  | addAX x | subAX x | andAX x | orAX x | xorAX x | movAX x => exact ⟨_, rfl, coreFrame_immediateToAcc s _⟩
  | szM m | szMi m i | snzMi m i => exact ⟨_, rfl, coreFrame_testAndSkip s m _⟩
  | szaM m | sizaM m | sdzaM m => exact ⟨_, rfl, coreFrame_loadAndSkip s m _⟩
  | sizM m | sdzM m => exact ⟨_, rfl, coreFrame_modifyAndSkip s m _⟩
  | tabrdcM m | tabrdlM m => exact ⟨_, rfl, coreFrame_tableRead s m _⟩
  | jmpAddr addr | ret | retAX x | reti | halt =>
    refine ⟨_, rfl, ?_⟩
    constructor <;> rfl
  | callAddr addr =>
    refine ⟨_, rfl, (coreFrame_push s s.pc).trans ?_⟩
    constructor <;> simp
  | nop => exact ⟨_, rfl, coreFrame_charge s 1⟩
  | clrWdt =>
    refine ⟨_, rfl, CoreFrame.trans ?_ (coreFrame_charge _ 1)⟩
    split
    · exact .refl s
    · split
      · exact coreFrame_clearWdtOtherMethod s
      · exact coreFrame_clearWdt s
  | clrWdt1 | clrWdt2 => exact ⟨_, rfl, (coreFrame_clearWdtPair s _).trans (coreFrame_charge _ 1)⟩

theorem coreFrame_of_exec {i : Instr} (h : exec i s = .next t) : CoreFrame s t := by
  obtain ⟨u, hu, hframe⟩ := exec_coreFrame s i
  cases hu.symm.trans h
  exact hframe

theorem coreFrame_enterInterrupt (k : IrqSource) : CoreFrame s (enterInterrupt k s) := by
  refine (coreFrame_push s s.pc).trans ?_
  constructor <;> simp [enterInterrupt]

/-! ## The three kinds of step -/

/-- R14: what an instruction step answers, once the instruction is decoded and executed. -/
theorem step_of_exec {i : Instr} (hmode : s.mode = .running) (hirq : acceptable s = none)
    (hdecode : decodeWith s.cfg.enc (fetchWord s) = .ok i) (hexec : exec i (afterFetch s) = .next t) :
    step s = finishInstruction s t := by
  simp only [step, hmode, hirq, hdecode, hexec]

/-- A step that completes is an idle interval, an interrupt entry, or an instruction that changed the mode of no running
timer. -/
theorem step_cases (h : step s = .next t) :
    (s.mode = .halted ∧ t = idleStep s) ∨
    (s.mode = .running ∧ ∃ k, acceptable s = some k ∧ t = interruptStep k s) ∨
    (s.mode = .running ∧ acceptable s = none ∧ ∃ i u, decodeWith s.cfg.enc (fetchWord s) = .ok i
      ∧ exec i (afterFetch s) = .next u ∧ timerModeClash s u = false ∧ t = runAgents u) := by
  cases hmode : s.mode with
  | halted =>
    simp only [step, hmode, Host.Outcome.next.injEq] at h
    exact .inl ⟨rfl, h.symm⟩
  | running =>
    cases hirq : acceptable s with
    | some k =>
      simp only [step, hmode, hirq, Host.Outcome.next.injEq] at h
      exact .inr (.inl ⟨rfl, k, rfl, h.symm⟩)
    | none =>
      cases hdecode : decodeWith s.cfg.enc (fetchWord s) with
      | error e => simp [step, hmode, hirq, hdecode] at h
      | ok i =>
        obtain ⟨u, hexec, -⟩ := exec_coreFrame (afterFetch s) i
        rw [step_of_exec s hmode hirq hdecode hexec] at h
        unfold finishInstruction at h
        split at h
        · cases h
        · rename_i hclash
          cases h
          exact .inr (.inr ⟨rfl, rfl, i, u, rfl, hexec, by simpa using hclash, rfl⟩)

/-- Settles O5: `step_of_exec`, with the two answers of `finishInstruction`. -/
theorem stepRunsDecodedInstruction : Obligations.StepRunsDecodedInstruction := by
  intro s t i hmode hirq hdecode hexec
  rw [step_of_exec s hmode hirq hdecode hexec]
  exact ⟨fun hclash => by simp [finishInstruction, hclash], fun hclash => by simp [finishInstruction, hclash]⟩

end Sys2Proof.Machine
end

section
/-! SUPPORT. What the edge detectors and the timers' clocks can touch: the edges seen, the requests, the two timers and the
PFD flip-flop, and that a request or a wake-up sets the core running. -/

namespace Sys2Proof.Machine

/-- `s`, but with what the edge detectors and the timers write taken from `t`. -/
def State.detectedAs (s t : State) : State :=
  { s with seen := t.seen, mode := t.mode, intc := t.intc, tmr0 := t.tmr0, tmr1 := t.tmr1, pfd := t.pfd }

/-- `t` differs from `s` at most in what the edge detectors and the timers write. -/
def DetectorFrame (s t : State) : Prop := t = s.detectedAs t

variable {s t u : State}

theorem DetectorFrame.refl (s : State) : DetectorFrame s s := rfl

theorem DetectorFrame.trans (h : DetectorFrame s t) (k : DetectorFrame t u) : DetectorFrame s u :=
  calc u = t.detectedAs u := k
    _ = (s.detectedAs t).detectedAs u := congrArg (·.detectedAs u) h
    _ = s.detectedAs u := rfl

theorem DetectorFrame.cfg (h : DetectorFrame s t) : t.cfg = s.cfg := (congrArg State.cfg h :)
theorem DetectorFrame.program (h : DetectorFrame s t) : t.program = s.program := (congrArg State.program h :)
theorem DetectorFrame.eeprom (h : DetectorFrame s t) : t.eeprom = s.eeprom := (congrArg State.eeprom h :)
theorem DetectorFrame.script (h : DetectorFrame s t) : t.script = s.script := (congrArg State.script h :)

theorem DetectorFrame.ite (c : Prop) [Decidable c] (h : DetectorFrame s t) (k : DetectorFrame s u) :
    DetectorFrame s (if c then t else u) := by
  split <;> assumption

/-- An action taken only under a condition. -/
theorem DetectorFrame.guard (c : Prop) [Decidable c] (h : DetectorFrame s t) : DetectorFrame s (if c then t else s) :=
  h.ite c (.refl s)

variable (s)

theorem detectorFrame_withSeen (v : Seen) : DetectorFrame s (s.withSeen v) := rfl
theorem detectorFrame_withMode (v : CoreMode) : DetectorFrame s (s.withMode v) := rfl
theorem detectorFrame_withIntc (v : Interrupts) : DetectorFrame s (s.withIntc v) := rfl
theorem detectorFrame_withTmr0 (v : Timer0) : DetectorFrame s (s.withTmr0 v) := rfl
theorem detectorFrame_withTmr1 (v : Timer1) : DetectorFrame s (s.withTmr1 v) := rfl
theorem detectorFrame_withPfd (v : Bool) : DetectorFrame s (s.withPfd v) := rfl

theorem detectorFrame_requestInterrupt (k : IrqSource) : DetectorFrame s (requestInterrupt k s) := by
  rcases requestInterrupt_cases s k with h | h <;> rw [h]
  · exact detectorFrame_withIntc s _
  · exact (detectorFrame_withIntc s _).trans (detectorFrame_withMode _ _)

theorem detectorFrame_clockPfd (src : PfdSource) : DetectorFrame s (clockPfd src s) :=
  (detectorFrame_withPfd s _).guard _

theorem detectorFrame_countTimer0 : DetectorFrame s (countTimer0 s) := by
  rcases countTimer0_cases s with ⟨-, h⟩ | ⟨-, h⟩ <;> rw [h]
  · exact detectorFrame_withTmr0 s _
  · exact ((detectorFrame_withTmr0 s _).trans (detectorFrame_clockPfd _ _)).trans (detectorFrame_requestInterrupt _ _)

theorem detectorFrame_countTimer1 : DetectorFrame s (countTimer1 s) := by
  rcases countTimer1_cases s with ⟨-, h⟩ | ⟨-, h⟩ <;> rw [h]
  · exact detectorFrame_withTmr1 s _
  · exact ((detectorFrame_withTmr1 s _).trans (detectorFrame_clockPfd _ _)).trans (detectorFrame_requestInterrupt _ _)

theorem detectorFrame_seeEvent0 : DetectorFrame s (seeEvent0 s) := by
  rcases seeEvent0_cases s with h | ⟨-, h⟩ <;> rw [h]
  · exact .refl s
  · exact (detectorFrame_withTmr0 s _).trans (detectorFrame_countTimer0 _)

theorem detectorFrame_seeEvent1 : DetectorFrame s (seeEvent1 s) := by
  rcases seeEvent1_cases s with h | ⟨-, h⟩ <;> rw [h]
  · exact .refl s
  · exact (detectorFrame_withTmr1 s _).trans (detectorFrame_countTimer1 _)

theorem detectorFrame_eventTimer0 (clocked : Bool) : DetectorFrame s (eventTimer0 clocked s) :=
  (detectorFrame_seeEvent0 s).trans (.ite _ (detectorFrame_withTmr0 _ _) (detectorFrame_countTimer0 _))

theorem detectorFrame_eventTimer1 (clocked : Bool) : DetectorFrame s (eventTimer1 clocked s) :=
  (detectorFrame_seeEvent1 s).trans (.ite _ (detectorFrame_withTmr1 _ _) (detectorFrame_countTimer1 _))

theorem detectorFrame_transitionTimer0 (clocked rising : Bool) :
    DetectorFrame s (transitionTimer0 clocked rising s) := by
  rcases transitionTimer0_cases s clocked rising with h | ⟨-, -, h⟩ | ⟨-, -, h⟩ <;> rw [h]
  · exact .refl s
  · exact detectorFrame_eventTimer0 s clocked
  · exact detectorFrame_withTmr0 s _

theorem detectorFrame_transitionTimer1 (clocked rising : Bool) :
    DetectorFrame s (transitionTimer1 clocked rising s) := by
  rcases transitionTimer1_cases s clocked rising with h | ⟨-, -, h⟩ | ⟨-, -, h⟩ <;> rw [h]
  · exact .refl s
  · exact detectorFrame_eventTimer1 s clocked
  · exact detectorFrame_withTmr1 s _

theorem detectorFrame_tickTimer0 : DetectorFrame s (tickTimer0 s) := by
  rcases tickTimer0_cases s with h | ⟨-, -, h⟩ | ⟨-, -, t, rfl, h⟩ <;> rw [h]
  · exact .refl s
  · exact detectorFrame_countTimer0 s
  · exact (detectorFrame_withTmr0 s _).trans ((detectorFrame_countTimer0 _).guard _)

theorem detectorFrame_tickTimer1 : DetectorFrame s (tickTimer1 s) := by
  rcases tickTimer1_cases s with h | ⟨-, -, h⟩ | ⟨-, -, t, rfl, h⟩ <;> rw [h]
  · exact .refl s
  · exact detectorFrame_countTimer1 s
  · exact (detectorFrame_withTmr1 s _).trans ((detectorFrame_countTimer1 _).guard _)

theorem detectorFrame_transitionInt (rising : Bool) : DetectorFrame s (transitionInt rising s) :=
  (detectorFrame_requestInterrupt s _).guard _

theorem detectorFrame_transitionComparator (rising : Bool) : DetectorFrame s (transitionComparator rising s) :=
  (detectorFrame_requestInterrupt s _).guard _

theorem detectorFrame_transitionCountSource (rising : Bool) : DetectorFrame s (transitionCountSource rising s) :=
  (detectorFrame_countTimer0 s).guard _

theorem detectorFrame_wakeOnPa (before now : Byte) : DetectorFrame s (wakeOnPa before now s) :=
  .ite _ (.refl s) (detectorFrame_withMode s _)

/-- A look at the inputs (R76): the edge detectors, then the EEPROM. -/
theorem sense_eq : ∃ t, DetectorFrame s t ∧ sense s = senseEeprom t := by
  refine ⟨_, ?_, rfl⟩
  refine .trans ?_ (detectorFrame_wakeOnPa _ _ _)
  refine .trans ?_ (.guard _ (detectorFrame_transitionCountSource _ _))
  refine .trans ?_ (.guard _ (detectorFrame_transitionComparator _ _))
  refine .trans ?_ (.guard _ (detectorFrame_transitionTimer1 _ _ _))
  have hpa1 (v : State) (c b : Bool) : DetectorFrame v (transitionTimer0 c b (transitionInt b v)) :=
    (detectorFrame_transitionInt v b).trans (detectorFrame_transitionTimer0 _ c b)
  exact (detectorFrame_withSeen s _).trans (.guard _ (hpa1 _ _ _))

end Sys2Proof.Machine
end

section
/-! SUPPORT. The configuration, the program and the coming events through every step (R7, R9, R34, R136). -/

namespace Sys2Proof.Machine

/-- `t` has the configuration and the program of `s`, and of its coming events some have been used up from the front. -/
structure FixedFrom (s t : State) : Prop where
  cfg : t.cfg = s.cfg
  program : t.program = s.program
  script : t.script <:+ s.script

variable {s t u : State}

theorem FixedFrom.trans (h : FixedFrom s t) (k : FixedFrom t u) : FixedFrom s u where
  cfg := k.cfg.trans h.cfg
  program := k.program.trans h.program
  script := k.script.trans h.script

/-- What leaves all three leaves them fixed. -/
theorem FixedFrom.of_eq (hcfg : t.cfg = s.cfg) (hprogram : t.program = s.program) (hscript : t.script = s.script) :
    FixedFrom s t :=
  ⟨hcfg, hprogram, hscript ▸ List.suffix_rfl⟩

theorem CoreFrame.fixedFrom (h : CoreFrame s t) : FixedFrom s t := .of_eq h.cfg h.program h.script

theorem DetectorFrame.fixedFrom (h : DetectorFrame s t) : FixedFrom s t :=
  .of_eq h.cfg h.program h.script

variable (s)

theorem fixedFrom_applyReset (k : ResetKind) : FixedFrom s (applyReset k s) := by
  cases k <;> exact .of_eq rfl rfl rfl

theorem fixedFrom_wdtReset : FixedFrom s (wdtReset s) := by
  unfold wdtReset
  split <;> exact fixedFrom_applyReset s _

theorem fixedFrom_clockWdt : FixedFrom s (clockWdt s) := by
  have hcount (w : Watchdog) : FixedFrom s (s.withWdt w) := .of_eq rfl rfl rfl
  rcases clockWdt_cases s with ⟨w, h⟩ | ⟨-, w, h⟩ <;> rw [h]
  · exact hcount w
  · exact (hcount w).trans (fixedFrom_wdtReset _)

theorem fixedFrom_senseEeprom : FixedFrom s (senseEeprom s) := by
  obtain ⟨e, d, h⟩ := senseEeprom_eq s
  rw [h]
  exact .of_eq rfl rfl rfl

theorem fixedFrom_withScript_rest {events : List Event} {rest : List (List Event)} (h : s.script = events :: rest) :
    FixedFrom s (s.withScript rest) :=
  ⟨rfl, rfl, h ▸ List.suffix_cons events rest⟩

/-- Every action of an agent keeps what is fixed. -/
theorem fixedFrom_agentStable : AgentStable (FixedFrom s) where
  seen _ _ h := h.trans (.of_eq rfl rfl rfl)
  pins _ _ h := h.trans (.of_eq rfl rfl rfl)
  script t _ _ hscript h := h.trans (fixedFrom_withScript_rest t hscript)
  draws _ _ h := h.trans (.of_eq rfl rfl rfl)
  wake _ h := h.trans (.of_eq rfl rfl rfl)
  request t k h := h.trans (detectorFrame_requestInterrupt t k).fixedFrom
  transition0 t _ _ h := h.trans (detectorFrame_transitionTimer0 t _ _).fixedFrom
  transition1 t _ _ h := h.trans (detectorFrame_transitionTimer1 t _ _).fixedFrom
  count0 t h := h.trans (detectorFrame_countTimer0 t).fixedFrom
  oscillator _ _ h := h.trans (.of_eq rfl rfl rfl)
  see0 t h := h.trans (detectorFrame_seeEvent0 t).fixedFrom
  see1 t h := h.trans (detectorFrame_seeEvent1 t).fixedFrom
  tick0 t h := h.trans (detectorFrame_tickTimer0 t).fixedFrom
  tick1 t h := h.trans (detectorFrame_tickTimer1 t).fixedFrom
  prescaler _ _ h := h.trans (.of_eq rfl rfl rfl)
  watchdog t h := h.trans (fixedFrom_clockWdt t)
  reset t k _ _ h := h.trans (fixedFrom_applyReset t k)
  eeprom t h := h.trans (fixedFrom_senseEeprom t)
  busy _ _ h := h.trans (.of_eq rfl rfl rfl)

theorem fixedFrom_runAgents : FixedFrom s (runAgents s) :=
  (fixedFrom_agentStable s).runAgents (.of_eq rfl rfl rfl)

theorem fixedFrom_step (h : step s = .next t) : FixedFrom s t := by
  rcases step_cases s h with ⟨-, rfl⟩ | ⟨-, k, -, rfl⟩ | ⟨-, -, i, u, -, hexec, -, rfl⟩
  · exact (coreFrame_charge s 1).fixedFrom.trans (fixedFrom_runAgents _)
  · exact (coreFrame_enterInterrupt s k).fixedFrom.trans (fixedFrom_runAgents _)
  · have hfetch : FixedFrom s (afterFetch s) := .of_eq rfl rfl rfl
    exact (hfetch.trans (coreFrame_of_exec _ hexec).fixedFrom).trans (fixedFrom_runAgents u)

/-- Settles O44: the core's part of a step and the agents' run each keep what is fixed (`fixedFrom_step`). -/
theorem stepKeepsConfigAndProgram : Obligations.StepKeepsConfigAndProgram := by
  intro s t h
  obtain ⟨hcfg, hprogram, hscript⟩ := fixedFrom_step s h
  exact ⟨hcfg, hprogram, hscript⟩

end Sys2Proof.Machine
end

section
/-! SUPPORT. Bit by bit: the byte operations of the ports, and the levels and reads of port B (60_exceptions.md section 7). -/

namespace Sys2Proof.Machine

/-! ## Bytes -/

variable (a b v : Byte) (i j : BitNo)

@[simp] theorem getBit_zero : getBit 0x00#8 i = false := BitVec.getLsbD_zero

@[simp] theorem getBit_and : getBit (a &&& b) i = (getBit a i && getBit b i) := BitVec.getLsbD_and

@[simp] theorem getBit_or : getBit (a ||| b) i = (getBit a i || getBit b i) := BitVec.getLsbD_or

@[simp] theorem getBit_not : getBit (~~~a) i = !getBit a i := by
  simp [getBit, i.isLt]

@[simp] theorem getBit_bitAt (c : Bool) : getBit (bitAt i c) j = (c && i == j) := by
  revert i j c
  decide

@[simp] theorem getBit_maskIf (c : Bool) : getBit (maskIf c v) i = (c && getBit v i) := by
  cases c <;> simp [maskIf]

@[simp] theorem getBit_select : getBit (select v a b) i = if getBit v i then getBit a i else getBit b i := by
  cases h : getBit v i <;> simp [select, h]

theorem getBit_putBit (c : Bool) : getBit (putBit v i c) j = if i = j then c else getBit v j := by
  by_cases h : i = j <;> simp [putBit, h]

@[simp] theorem getBit_putBit_same (c : Bool) : getBit (putBit v i c) i = c := by simp [getBit_putBit]

theorem getBit_putBit_of_ne {i j : BitNo} (h : i ≠ j) (c : Bool) : getBit (putBit v i c) j = getBit v j := by
  simp [getBit_putBit, h]

/-- R380 of one pin. -/
theorem getBit_pinLevels (output control off outside driven pull : Byte) :
    getBit (pinLevels output control off outside driven pull) i =
      if !getBit control i && !getBit off i then getBit output i
      else getBit outside i || (getBit pull i && !getBit driven i && !getBit off i) := by
  simp [pinLevels, Bool.and_assoc]

/-! ## Port B -/

variable (s : State)

/-- PB5 always has its port function (R371, R381). -/
theorem getBit_pbOff_five : getBit (pbOff s) 5 = false := by
  simp +decide [pbOff, pbAnalog, pbOscillator]

theorem getBit_pbOwnLevel_of_ne {i : BitNo} (h : i ≠ 6#3) :
    getBit (pbOwnLevel s) i =
      getBit (pinLevels s.ports.pb s.ports.pbc (pbOff s) s.pins.pbLevel s.pins.pbDriven s.cfg.opt.pbPull) i := by
  unfold pbOwnLevel
  dsimp only
  split
  · exact getBit_putBit_of_ne _ (Ne.symm h) false
  · rfl

/-- Away from the comparator's output and from SDA the levels are the pins' own. -/
theorem getBit_pbLevel_of_ne {i : BitNo} (h2 : i ≠ 2#3) (h4 : i ≠ 4#3) :
    getBit (pbLevel s) i = getBit (pbOwnLevel s) i := by
  unfold pbLevel
  dsimp only
  split <;> split <;> simp [getBit_putBit, h2.symm, h4.symm]

/-! ## The EEPROM's lines -/

variable {s}

theorem sdaLine_of_portB (h : eepromOnPortB s = true) :
    sdaLine s = !((!getBit s.ports.pbc 4 && !getBit s.ports.pb 4)
      || (getBit s.pins.pbDriven 4 && !getBit s.pins.pbLevel 4) || s.eeprom.pull) := by
  simp only [sdaLine, h, if_true]

theorem sdaLine_of_ownPins (h : eepromOnPortB s = false) : sdaLine s = (s.pins.sda && !s.eeprom.pull) := by
  simp [sdaLine, h]

theorem sclLine_of_ownPins (h : eepromOnPortB s = false) : sclLine s = s.pins.scl := by
  simp [sclLine, h]

/-- SCL on port B is PB5 (R400), a port pin like any other (R380). -/
theorem sclLine_of_portB (h : eepromOnPortB s = true) : sclLine s = getBit (pbLevel s) 5 := by
  rw [getBit_pbLevel_of_ne s (by decide) (by decide)]
  simp [sclLine, h]

theorem getBit_pbLevel_five :
    getBit (pbLevel s) 5 = if !getBit s.ports.pbc 5 then getBit s.ports.pb 5
      else getBit s.pins.pbLevel 5 || (getBit s.cfg.opt.pbPull 5 && !getBit s.pins.pbDriven 5) := by
  rw [getBit_pbLevel_of_ne s (by decide) (by decide), getBit_pbOwnLevel_of_ne s (by decide), getBit_pinLevels,
    getBit_pbOff_five]
  simp

theorem getBit_pbLevel_sda (h : eepromOnPortB s = true) : getBit (pbLevel s) 4 = sdaLine s := by
  simp only [pbLevel, h, if_true, getBit_putBit_same]

/-- R400: a read of PB4 as SDA, low while the EEPROM pulls. -/
theorem getBit_readPb_sda (h : eepromOnPortB s = true) :
    getBit (readPb s) 4 = ((if getBit s.ports.pbc 4 then sdaLine s else getBit s.ports.pb 4) && !s.eeprom.pull) := by
  have hport : getBit (pbAnalog s ||| pbOscillator s) 4 = false := by simp +decide [pbAnalog, pbOscillator]
  simp only [readPb, getBit_select, hport, h, Bool.true_and]
  cases comparatorOnPin s <;> cases s.eeprom.pull <;> simp [getBit_putBit, ← getBit_pbLevel_sda h]

theorem sdaLine_of_pull (h : s.eeprom.pull = true) : sdaLine s = false := by
  cases hw : eepromOnPortB s with
  | true => simp [sdaLine_of_portB hw, h]
  | false => simp [sdaLine_of_ownPins hw, h]

/-! ## The EEPROM follows its lines -/

/-- One look of the EEPROM at its lines, and then at its own output (D22). -/
def State.lookedEeprom (s : State) : Eeprom :=
  let e := s.eeprom.observe s.draws s.cfg.writeTime (sdaLine s) (sclLine s)
  { e with seenSda := sdaLine (s.withEeprom e) }

theorem senseEeprom_eeprom (h : hasEeprom s = true) : (senseEeprom s).eeprom = s.lookedEeprom := by
  unfold senseEeprom
  rw [if_pos h]
  dsimp only
  split <;> rfl

theorem senseEeprom_of_none (h : hasEeprom s = false) : senseEeprom s = s := by
  simp [senseEeprom, h]

variable {t : State}

/-- The edge detectors have no part in the lines. -/
theorem DetectorFrame.hasEeprom (h : DetectorFrame s t) : hasEeprom t = hasEeprom s := (congrArg Machine.hasEeprom h :)

theorem DetectorFrame.lookedEeprom (h : DetectorFrame s t) : t.lookedEeprom = s.lookedEeprom :=
  (congrArg State.lookedEeprom h :)

theorem sense_eeprom (h : hasEeprom s = true) : (sense s).eeprom = s.lookedEeprom := by
  obtain ⟨t, hframe, heq⟩ := sense_eq s
  rw [heq, senseEeprom_eeprom (hframe.hasEeprom.trans h), hframe.lookedEeprom]

theorem sense_eeprom_of_none (h : hasEeprom s = false) : (sense s).eeprom = s.eeprom := by
  obtain ⟨t, hframe, heq⟩ := sense_eq s
  rw [heq, senseEeprom_of_none (hframe.hasEeprom.trans h), hframe.eeprom]

/-- Settles O58: the lines' levels and PB4's read bit by bit, and `sense_eeprom` for what the EEPROM then does. -/
theorem eepromLines : Obligations.EepromLines := by
  intro s
  refine ⟨fun hB => ⟨?sdaLow, getBit_pbLevel_sda hB, ?readInput, ?readOutput, sclLine_of_portB hB, ?sclOutput, ?sclInput⟩,
    fun _ hown => ⟨sdaLine_of_ownPins hown, sclLine_of_ownPins hown⟩, ?follows, sense_eeprom_of_none⟩
  case sdaLow =>
    simp only [sdaLine_of_portB hB, Bool.not_eq_false', Bool.or_eq_true, Bool.and_eq_true, Bool.not_eq_true', or_assoc]
  case readInput =>
    intro hin
    simp only [regValue, getBit_readPb_sda hB, hin, if_true]
    cases hpull : s.eeprom.pull <;> simp [sdaLine_of_pull, hpull]
  case readOutput =>
    intro hout
    simp only [regValue, getBit_readPb_sda hB, hout, Bool.false_eq_true, if_false]
  case sclOutput =>
    intro hout
    rw [sclLine_of_portB hB, getBit_pbLevel_five, hout]
    rfl
  case sclInput =>
    intro hin hdriven
    rw [sclLine_of_portB hB, getBit_pbLevel_five, hin, hdriven]
    simp
  case follows =>
    rintro he e rfl
    exact sense_eeprom he

end Sys2Proof.Machine
end

section
/-! SUPPORT. The one induction over the instructions: a property that every operation of the core keeps holds after every
instruction, but for the watchdog clears and HALT, which write TO, PDF and the watchdog (R45, R46). -/

namespace Sys2Proof.Machine

/-- The four instructions that write TO and PDF (R45, R46). -/
def watchdogInstrs : List Instr := [.clrWdt, .clrWdt1, .clrWdt2, .halt]

/-- What a property must survive to survive the instructions: each operation they are made of. -/
structure CoreStable (P : State → Prop) : Prop where
  acc : ∀ s v, P s → P (s.withAcc v)
  pc : ∀ s v, P s → P (s.withPc v)
  tblh : ∀ s v, P s → P (s.withTblh v)
  cycles : ∀ s v, P s → P (s.withCycles v)
  intc : ∀ s v, P s → P (s.withIntc v)
  push : ∀ s v, P s → P (s.push v)
  pop : ∀ s, P s → P (s.withStack s.stack.dropLast)
  buffer : ∀ s v, P s → P (s.withTmr1 { s.tmr1 with buffer := v })
  flags : ∀ s f, f.pdf = s.status.pdf → f.timeOut = s.status.timeOut → P s → P (s.withStatus f)
  memWrite : ∀ s m v, P s → P (memWrite s m v)

variable {P : State → Prop} {s t : State} (m : DAddr)

theorem CoreStable.charge (h : CoreStable P) (n : Nat) (hs : P s) : P (s.charge n) := h.cycles _ _ hs

theorem CoreStable.skipIf (h : CoreStable P) (b : Bool) (hs : P s) : P (s.skipIf b) := by
  rw [State.skipIf_eq]
  exact h.cycles _ _ (h.pc _ _ hs)

theorem CoreStable.popPc (h : CoreStable P) (hs : P s) : P s.popPc := h.pop _ (h.pc _ _ hs)

theorem CoreStable.afterRead (h : CoreStable P) (hs : P s) : P (afterRead s m) := by
  rw [afterRead_eq]
  exact h.buffer _ _ hs

theorem CoreStable.resultToAcc (h : CoreStable P) (o : AluOut) (hs : P s) : P (resultToAcc s o) :=
  h.flags _ (o.flags.apply s.status) rfl rfl (h.acc _ _ hs)

theorem CoreStable.resultToMem (h : CoreStable P) (o : AluOut) (hs : P s) : P (resultToMem s m o) := by
  rcases resultToMem_cases s m o with ⟨-, -, heq⟩ | ⟨-, heq⟩ <;> rw [heq]
  · exact h.flags _ (freeStatus s) rfl rfl hs
  · exact h.flags _ (o.flags.apply _) rfl rfl (h.memWrite _ _ _ hs)

/-! ## The forms of an instruction -/

theorem CoreStable.readToAcc (h : CoreStable P) (f : Byte → AluOut) (hs : P s) : P (readToAcc f m s) :=
  h.charge 1 (h.resultToAcc _ (h.afterRead m hs))

theorem CoreStable.readModifyWrite (h : CoreStable P) (f : Byte → AluOut) (hs : P s) : P (readModifyWrite f m s) :=
  h.charge 1 (h.resultToMem m _ (h.afterRead m hs))

theorem CoreStable.writeOnly (h : CoreStable P) (o : AluOut) (hs : P s) : P (writeOnly o m s) :=
  h.charge 1 (h.resultToMem m o hs)

theorem CoreStable.immediateToAcc (h : CoreStable P) (o : AluOut) (hs : P s) : P (immediateToAcc o s) :=
  h.charge 1 (h.resultToAcc o hs)

theorem CoreStable.testAndSkip (h : CoreStable P) (test : Byte → Bool) (hs : P s) : P (testAndSkip test m s) :=
  h.skipIf _ (h.charge 1 (h.afterRead m hs))

theorem CoreStable.loadAndSkip (h : CoreStable P) (f : Byte → Byte) (hs : P s) : P (loadAndSkip f m s) :=
  h.skipIf _ (h.readToAcc m _ hs)

theorem CoreStable.modifyAndSkip (h : CoreStable P) (f : Byte → Byte) (hs : P s) : P (modifyAndSkip f m s) := by
  unfold Machine.modifyAndSkip skipOnZeroResult
  split <;> exact h.skipIf _ (h.readModifyWrite m _ hs)

theorem CoreStable.tableRead (h : CoreStable P) (a : PAddr) (hs : P s) : P (tableRead a m s) :=
  h.charge 2 (h.tblh _ _ (h.memWrite _ m _ hs))

/-- A property that every operation keeps holds after every instruction but the four. -/
theorem CoreStable.exec (h : CoreStable P) {i : Instr} (hi : i ∉ watchdogInstrs) (hexec : exec i s = .next t)
    (hs : P s) : P t := by
  cases i with
  | clrWdt | clrWdt1 | clrWdt2 | halt => simp [watchdogInstrs] at hi
  | addAM m | adcAM m | subAM m | sbcAM m | andAM m | orAM m | xorAM m | cplaM m | incaM m | decaM m
  | rraM m | rrcaM m | rlaM m | rlcaM m | swapaM m | movAM m => cases hexec; exact h.readToAcc m _ hs
  | addmAM m | adcmAM m | submAM m | sbcmAM m | andmAM m | ormAM m | xormAM m | cplM m | incM m | decM m
  | rrM m | rrcM m | rlM m | rlcM m | swapM m | clrMi m i | setMi m i => cases hexec; exact h.readModifyWrite m _ hs
  | movMA m | clrM m | setM m | daaM m => cases hexec; exact h.writeOnly m _ hs
  | addAX x | subAX x | andAX x | orAX x | xorAX x | movAX x => cases hexec; exact h.immediateToAcc _ hs
  | szM m | szMi m i | snzMi m i => cases hexec; exact h.testAndSkip m _ hs
  | szaM m | sizaM m | sdzaM m => cases hexec; exact h.loadAndSkip m _ hs
  | sizM m | sdzM m => cases hexec; exact h.modifyAndSkip m _ hs
  | tabrdcM m | tabrdlM m => cases hexec; exact h.tableRead m _ hs
  | jmpAddr addr => cases hexec; exact h.charge 2 (h.pc _ _ hs)
  | callAddr addr => cases hexec; exact h.charge 2 (h.pc _ _ (h.push _ _ hs))
  | ret => cases hexec; exact h.charge 2 (h.popPc hs)
  | retAX x => cases hexec; exact h.charge 2 (h.acc _ _ (h.popPc hs))
  | reti => cases hexec; exact h.charge 2 (h.intc _ _ (h.popPc hs))
  | nop => cases hexec; exact h.charge 1 hs

/-- An interrupt entry is made of the same operations (R326). -/
theorem CoreStable.enterInterrupt (h : CoreStable P) (k : IrqSource) (hs : P s) : P (enterInterrupt k s) :=
  h.charge _ (h.intc _ _ (h.pc _ _ (h.push _ _ hs)))

/-! ## TO and PDF (R45 to R47) -/

/-- `t` has the TO and PDF of `s`. -/
def SameProtected (s t : State) : Prop := t.status.timeOut = s.status.timeOut ∧ t.status.pdf = s.status.pdf

theorem sameProtected_coreStable (s : State) : CoreStable (SameProtected s) where
  acc _ _ h := h
  pc _ _ h := h
  tblh _ _ h := h
  cycles _ _ h := h
  intc _ _ h := h
  push _ _ h := h
  pop _ h := h
  buffer _ _ h := h
  flags _ _ hpdf hto h := ⟨hto.trans h.1, hpdf.trans h.2⟩
  memWrite u m v h := ⟨(memWrite_timeOut u m v).trans h.1, (memWrite_pdf u m v).trans h.2⟩

/-- Settles O41: TO and PDF survive every operation an instruction other than the four is made of. -/
theorem timeOutAndPdfProtected : Obligations.TimeOutAndPdfProtected := by
  intro i s t hi hexec
  exact (sameProtected_coreStable s).exec hi hexec ⟨rfl, rfl⟩

end Sys2Proof.Machine
end

section
/-! SUPPORT. The invariant of the states between two steps, through each action of an agent, each operation of the core and
each reset. -/

namespace Sys2Proof.Machine

variable {s t : State}

/-! ## Updates of one field -/

theorem State.Inv.withMode_running (h : s.Inv) : (s.withMode .running).Inv := { h with haltedFlags := nofun }

theorem State.Inv.withIntc (h : s.Inv) (v : Interrupts) : (s.withIntc v).Inv := { h with }

theorem State.Inv.withWdt (h : s.Inv) (v : Watchdog) : (s.withWdt v).Inv := { h with }

theorem State.Inv.withTmr0 (h : s.Inv) (v : Timer0) (hpulse : v.pulse ≠ .idle → v.on = true ∧ v.mode = modePulseWidth)
    (hevent : v.event = true → v.on = true ∧ v.mode = modeEventCount) : (s.withTmr0 v).Inv :=
  { h with pulse0 := hpulse, event0 := hevent }

theorem State.Inv.withTmr1 (h : s.Inv) (v : Timer1) (hpulse : v.pulse ≠ .idle → v.on = true ∧ v.mode = modePulseWidth)
    (hevent : v.event = true → v.on = true ∧ v.mode = modeEventCount) : (s.withTmr1 v).Inv :=
  { h with pulse1 := hpulse, event1 := hevent }

theorem State.Inv.withEeprom (h : s.Inv) (e : Eeprom) (he : Memory.wf 128 e.cells = true) : (s.withEeprom e).Inv :=
  { h with cellsForm := he }

/-! ## Requests and counts -/

theorem State.Inv.requestInterrupt (h : s.Inv) (k : IrqSource) : (requestInterrupt k s).Inv := by
  rcases requestInterrupt_cases s k with heq | heq <;> rw [heq]
  · exact h.withIntc _
  · exact (h.withIntc _).withMode_running

theorem State.Inv.clockPfd (h : s.Inv) (src : PfdSource) : (clockPfd src s).Inv := by
  unfold Machine.clockPfd
  split
  · exact { h with }
  · exact h

theorem State.Inv.countTimer0 (h : s.Inv) : (countTimer0 s).Inv := by
  rcases countTimer0_cases s with ⟨-, heq⟩ | ⟨-, heq⟩ <;> rw [heq]
  · exact h.withTmr0 _ h.pulse0 h.event0
  · refine State.Inv.requestInterrupt (State.Inv.clockPfd ?_ _) _
    exact h.withTmr0 _ h.pulse0 h.event0

theorem State.Inv.countTimer1 (h : s.Inv) : (countTimer1 s).Inv := by
  rcases countTimer1_cases s with ⟨-, heq⟩ | ⟨-, heq⟩ <;> rw [heq]
  · exact h.withTmr1 _ h.pulse1 h.event1
  · refine State.Inv.requestInterrupt (State.Inv.clockPfd ?_ _) _
    exact h.withTmr1 _ h.pulse1 h.event1

theorem State.Inv.seeEvent0 (h : s.Inv) : (seeEvent0 s).Inv := by
  rcases seeEvent0_cases s with heq | ⟨-, heq⟩ <;> rw [heq]
  · exact h
  · refine State.Inv.countTimer0 ?_
    exact h.withTmr0 _ h.pulse0 nofun

theorem State.Inv.seeEvent1 (h : s.Inv) : (seeEvent1 s).Inv := by
  rcases seeEvent1_cases s with heq | ⟨-, heq⟩ <;> rw [heq]
  · exact h
  · refine State.Inv.countTimer1 ?_
    exact h.withTmr1 _ h.pulse1 nofun

/-! ## A count leaves a timer's control fields -/

section
variable (s)

@[simp] theorem requestInterrupt_tmr0 (k : IrqSource) : (requestInterrupt k s).tmr0 = s.tmr0 := by
  rcases requestInterrupt_cases s k with h | h <;> rw [h] <;> rfl

@[simp] theorem requestInterrupt_tmr1 (k : IrqSource) : (requestInterrupt k s).tmr1 = s.tmr1 := by
  rcases requestInterrupt_cases s k with h | h <;> rw [h] <;> rfl

@[simp] theorem clockPfd_tmr0 (src : PfdSource) : (clockPfd src s).tmr0 = s.tmr0 := by
  unfold clockPfd
  split <;> rfl

@[simp] theorem clockPfd_tmr1 (src : PfdSource) : (clockPfd src s).tmr1 = s.tmr1 := by
  unfold clockPfd
  split <;> rfl

/-- A count of Timer 0 changes its counter alone. -/
theorem countTimer0_tmr0 : (countTimer0 s).tmr0 = { s.tmr0 with counter := (countTimer0 s).tmr0.counter } := by
  rcases countTimer0_cases s with ⟨-, h⟩ | ⟨-, h⟩ <;> rw [h] <;> simp

/-- A count of Timer 1 changes its counter alone. -/
theorem countTimer1_tmr1 : (countTimer1 s).tmr1 = { s.tmr1 with counter := (countTimer1 s).tmr1.counter } := by
  rcases countTimer1_cases s with ⟨-, h⟩ | ⟨-, h⟩ <;> rw [h] <;> simp

/-- The sight of an event leaves Timer 0 on or off, in its mode. -/
theorem seeEvent0_control : (seeEvent0 s).tmr0.on = s.tmr0.on ∧ (seeEvent0 s).tmr0.mode = s.tmr0.mode := by
  rcases seeEvent0_cases s with h | ⟨-, h⟩ <;> rw [h]
  · exact ⟨rfl, rfl⟩
  · rw [countTimer0_tmr0]
    exact ⟨rfl, rfl⟩

/-- The sight of an event leaves Timer 1 on or off, in its mode. -/
theorem seeEvent1_control : (seeEvent1 s).tmr1.on = s.tmr1.on ∧ (seeEvent1 s).tmr1.mode = s.tmr1.mode := by
  rcases seeEvent1_cases s with h | ⟨-, h⟩ <;> rw [h]
  · exact ⟨rfl, rfl⟩
  · rw [countTimer1_tmr1]
    exact ⟨rfl, rfl⟩

end

/-! ## Transitions of the timers' pins and the timers' clocks -/

theorem State.Inv.eventTimer0 (h : s.Inv) (clocked : Bool) (hon : s.tmr0.on = true)
    (hmode : s.tmr0.mode = modeEventCount) : (eventTimer0 clocked s).Inv := by
  obtain ⟨hsameOn, hsameMode⟩ := seeEvent0_control s
  unfold Machine.eventTimer0
  dsimp only
  split
  · exact h.seeEvent0.withTmr0 _ h.seeEvent0.pulse0 fun _ => ⟨hsameOn.trans hon, hsameMode.trans hmode⟩
  · exact h.seeEvent0.countTimer0

theorem State.Inv.eventTimer1 (h : s.Inv) (clocked : Bool) (hon : s.tmr1.on = true)
    (hmode : s.tmr1.mode = modeEventCount) : (eventTimer1 clocked s).Inv := by
  obtain ⟨hsameOn, hsameMode⟩ := seeEvent1_control s
  unfold Machine.eventTimer1
  dsimp only
  split
  · exact h.seeEvent1.withTmr1 _ h.seeEvent1.pulse1 fun _ => ⟨hsameOn.trans hon, hsameMode.trans hmode⟩
  · exact h.seeEvent1.countTimer1

theorem State.Inv.transitionTimer0 (h : s.Inv) (clocked rising : Bool) : (transitionTimer0 clocked rising s).Inv := by
  rcases transitionTimer0_cases s clocked rising with heq | ⟨hon, hmode, heq⟩ | ⟨hon, hmode, heq⟩ <;> rw [heq]
  · exact h
  · exact h.eventTimer0 clocked hon hmode
  · exact h.withTmr0 _ (fun _ => ⟨hon, hmode⟩) h.event0

theorem State.Inv.transitionTimer1 (h : s.Inv) (clocked rising : Bool) : (transitionTimer1 clocked rising s).Inv := by
  rcases transitionTimer1_cases s clocked rising with heq | ⟨hon, hmode, heq⟩ | ⟨hon, hmode, heq⟩ <;> rw [heq]
  · exact h
  · exact h.eventTimer1 clocked hon hmode
  · exact h.withTmr1 _ (fun _ => ⟨hon, hmode⟩) h.event1

/-- Timer 0 has no unseen event in pulse width mode. -/
theorem State.Inv.event0_of_pulseWidth (h : s.Inv) (hmode : s.tmr0.mode = modePulseWidth) : s.tmr0.event = false := by
  by_contra hevent
  obtain ⟨-, hcount⟩ := h.event0 (by simpa using hevent)
  exact absurd (hmode.symm.trans hcount) (by decide)

/-- Timer 1 has no unseen event in pulse width mode. -/
theorem State.Inv.event1_of_pulseWidth (h : s.Inv) (hmode : s.tmr1.mode = modePulseWidth) : s.tmr1.event = false := by
  by_contra hevent
  obtain ⟨-, hcount⟩ := h.event1 (by simpa using hevent)
  exact absurd (hmode.symm.trans hcount) (by decide)

theorem State.Inv.tickTimer0 (h : s.Inv) : (tickTimer0 s).Inv := by
  rcases tickTimer0_cases s with heq | ⟨-, -, heq⟩ | ⟨-, hmode, t, rfl, heq⟩ <;> rw [heq]
  · exact h
  · exact h.countTimer0
  · have hphase := h.withTmr0 { s.tmr0 with on := s.tmr0.pulse.staysOn, pulse := s.tmr0.pulse.next }
      (fun hp => ⟨PulsePhase.next_staysOn _ hp, hmode⟩) (by simp [h.event0_of_pulseWidth hmode])
    split
    · exact hphase.countTimer0
    · exact hphase

theorem State.Inv.tickTimer1 (h : s.Inv) : (tickTimer1 s).Inv := by
  rcases tickTimer1_cases s with heq | ⟨-, -, heq⟩ | ⟨-, hmode, t, rfl, heq⟩ <;> rw [heq]
  · exact h
  · exact h.countTimer1
  · have hphase := h.withTmr1 { s.tmr1 with on := s.tmr1.pulse.staysOn, pulse := s.tmr1.pulse.next }
      (fun hp => ⟨PulsePhase.next_staysOn _ hp, hmode⟩) (by simp [h.event1_of_pulseWidth hmode])
    split
    · exact hphase.countTimer1
    · exact hphase

/-! ## The EEPROM: only STOP writes a cell -/

section
variable (e : Eeprom) (d writeTime : Nat) (sda scl : Bool)

@[simp] theorem Eeprom.sendNext_cells : e.sendNext.cells = e.cells := rfl

@[simp] theorem Eeprom.idle_cells : e.idle.cells = e.cells := rfl

@[simp] theorem Eeprom.received_cells (w : EepromByte) (bits : Byte) : (e.received w bits).cells = e.cells := by
  unfold Eeprom.received
  split
  · split <;> rfl
  · rfl
  · rfl

@[simp] theorem Eeprom.acknowledged_cells (w : EepromByte) (b : Byte) : (e.acknowledged w b).cells = e.cells := by
  unfold Eeprom.acknowledged
  split
  · split <;> rfl
  · rfl
  · rfl

@[simp] theorem Eeprom.clockFall_cells : (e.clockFall d).cells = e.cells := by
  unfold Eeprom.clockFall
  split
  case h_1 => rfl
  case h_2 => split <;> simp
  case h_3 => simp
  case h_4 => split <;> rfl
  case h_5 => split <;> rfl
  case h_6 => split <;> [rfl; split] <;> rfl

@[simp] theorem Eeprom.clockRise_cells : (e.clockRise sda).cells = e.cells := by
  unfold Eeprom.clockRise
  split <;> rfl

@[simp] theorem Eeprom.clockChange_cells : (e.clockChange d sda scl).cells = e.cells := by
  unfold Eeprom.clockChange
  split <;> simp

variable {e}

theorem Eeprom.stop_cells_wf (h : Memory.wf 128 e.cells = true) : Memory.wf 128 (e.stop d writeTime).cells = true := by
  unfold Eeprom.stop
  split
  · exact Memory.write_wf h (BitVec.isLt _) _
  · exact h

theorem Eeprom.dataChange_cells_wf (h : Memory.wf 128 e.cells = true) :
    Memory.wf 128 (e.dataChange d writeTime sda scl).cells = true := by
  unfold Eeprom.dataChange
  split
  · split
    · exact Eeprom.stop_cells_wf d writeTime h
    · exact h
  · exact h

theorem Eeprom.observe_cells_wf (h : Memory.wf 128 e.cells = true) :
    Memory.wf 128 (e.observe d writeTime sda scl).cells = true := by
  unfold Eeprom.observe
  dsimp only
  split
  · exact h
  · exact Eeprom.dataChange_cells_wf d writeTime sda scl h
  · simpa using h
  · split
    · simpa using Eeprom.dataChange_cells_wf d writeTime sda _ h
    · exact Eeprom.dataChange_cells_wf d writeTime sda scl (by simpa using h)

theorem eepromPowerUp_cells_wf (h : Memory.wf 128 e.cells = true) :
    Memory.wf 128 (eepromPowerUp d e).cells = true := by
  unfold eepromPowerUp
  dsimp only
  split
  · exact h
  · exact Memory.write_wf h e.writing.isLt _

end

theorem State.Inv.senseEeprom (h : s.Inv) : (senseEeprom s).Inv := by
  cases hpart : hasEeprom s with
  | false => rwa [senseEeprom_of_none hpart]
  | true =>
    have hcells : Memory.wf 128 (Machine.senseEeprom s).eeprom.cells = true := by
      rw [senseEeprom_eeprom hpart]
      exact Eeprom.observe_cells_wf _ _ _ _ h.cellsForm
    obtain ⟨e, d, heq⟩ := senseEeprom_eq s
    rw [heq] at hcells ⊢
    exact { h.withEeprom e hcells with }

/-! ## Resets -/

/-- The common part of a reset keeps the invariant if it sets TO only where the watchdog is enabled (D25). -/
theorem State.Inv.resetCommon (h : s.Inv) (k : ResetKind)
    (hto : s.cfg.opt.wdtEnabled = false → (statusAfterReset k s.draws s.status).timeOut = false) :
    (resetCommon k s).Inv :=
  { h with stackDepth := by simp, haltedFlags := nofun, noTimeOut := hto }

theorem State.Inv.resetPlatform (h : s.Inv) : (resetPlatform s).Inv :=
  { h with
    pulse0 := fun hp => absurd rfl hp, pulse1 := fun hp => absurd rfl hp
    event0 := nofun, event1 := nofun }

theorem State.Inv.resetContents (h : s.Inv) : (resetContents s).Inv where
  __ := h
  ramForm := by rw [resetContents_ram]; exact (freeRamContents_ok _ _).1
  ramBase := by rw [resetContents_ram]; exact (freeRamContents_ok _ _).2
  cellsForm := eepromPowerUp_cells_wf s.draws h.cellsForm

/-- A reset keeps the invariant; one by the watchdog needs the watchdog enabled. -/
theorem State.Inv.applyReset (h : s.Inv) (k : ResetKind)
    (hwdt : k = .wdtRunning ∨ k = .wdtHalted → s.cfg.opt.wdtEnabled = true) : (applyReset k s).Inv := by
  cases k with
  | powerOn => exact ((h.resetCommon .powerOn fun _ => rfl).resetPlatform).resetContents
  | resRunning => exact (h.resetCommon .resRunning h.noTimeOut).resetPlatform
  | resHalted => exact (h.resetCommon .resHalted fun _ => rfl).resetPlatform
  | wdtRunning => exact (h.resetCommon .wdtRunning (by simp [hwdt])).resetPlatform
  | wdtHalted => exact (h.resetCommon .wdtHalted (by simp [hwdt])).withTmr0 _ h.pulse0 h.event0

theorem State.Inv.wdtReset (h : s.Inv) (hwdt : s.cfg.opt.wdtEnabled = true) : (wdtReset s).Inv := by
  unfold Machine.wdtReset
  split <;> exact h.applyReset _ fun _ => hwdt

theorem State.Inv.clockWdt (h : s.Inv) : (clockWdt s).Inv := by
  rcases clockWdt_cases s with ⟨w, heq⟩ | ⟨hwdt, w, heq⟩ <;> rw [heq]
  · exact h.withWdt w
  · exact (h.withWdt w).wdtReset hwdt

/-- Every action of an agent keeps the invariant. -/
theorem inv_agentStable : AgentStable State.Inv where
  seen _ _ h := { h with }
  pins _ _ h := { h with }
  script _ _ _ _ h := { h with }
  draws _ _ h := { h with }
  wake _ h := h.withMode_running
  request _ k h := h.requestInterrupt k
  transition0 _ clocked rising h := h.transitionTimer0 clocked rising
  transition1 _ clocked rising h := h.transitionTimer1 clocked rising
  count0 _ h := h.countTimer0
  oscillator _ _ h := { h with }
  see0 _ h := h.seeEvent0
  see1 _ h := h.seeEvent1
  tick0 _ h := h.tickTimer0
  tick1 _ h := h.tickTimer1
  prescaler _ _ h := h.withTmr0 _ h.pulse0 h.event0
  watchdog _ h := h.clockWdt
  reset _ k hrunning hhalted h := h.applyReset k (by simp [hrunning, hhalted])
  eeprom _ h := h.senseEeprom
  busy _ _ h := h.withEeprom _ h.cellsForm

/-! ## The core's part of a step -/

/-- The invariant within a step, where cycles have been charged that the agents have still to run (D19). -/
def State.InvPending (s : State) : Prop := (s.withCycles 0).Inv

theorem State.Inv.pending (h : s.Inv) : s.InvPending := { h with cyclesRun := rfl }

theorem State.InvPending.regWrite (h : s.InvPending) (v : Byte) (r : Sfr) : (regWrite s v r).InvPending where
  stackDepth := by simpa using h.stackDepth
  ramForm := by simpa using h.ramForm
  ramBase := by simpa using h.ramBase
  programForm := by simpa using h.programForm
  cellsForm := by simpa using h.cellsForm
  cyclesRun := rfl
  haltedFlags := by simpa using h.haltedFlags
  noTimeOut := by simpa using h.noTimeOut
  pulse0 := regWrite_pulse0 s v r h.pulse0
  pulse1 := regWrite_pulse1 s v r h.pulse1
  event0 := regWrite_event0 s v r h.event0
  event1 := regWrite_event1 s v r h.event1

theorem State.InvPending.memWrite (h : s.InvPending) (m : DAddr) (v : Byte) : (memWrite s m v).InvPending := by
  obtain ⟨hform, hbase⟩ := memWrite_ram_ok s m v h.ramForm h.ramBase
  rcases memWrite_cases s m v with ⟨r, -, heq⟩ | ⟨-, heq⟩ | ⟨-, heq⟩ <;> rw [heq] at hform hbase ⊢
  · exact h.regWrite v r
  · exact { h with ramForm := hform, ramBase := hbase }
  · exact h

/-- Every operation of the core keeps it. -/
theorem invPending_coreStable : CoreStable State.InvPending where
  acc _ _ h := { h with }
  pc _ _ h := { h with }
  tblh _ _ h := { h with }
  cycles _ _ h := h
  intc _ v h := h.withIntc v
  push s v h := { h with stackDepth := s.push_depth v }
  pop s h := { h with stackDepth := by simpa using (Nat.sub_le _ 1).trans h.stackDepth }
  buffer _ _ h := h.withTmr1 _ h.pulse1 h.event1
  flags _ f hpdf hto h :=
    { h with
      haltedFlags := fun hmode => (h.haltedFlags hmode).imp hpdf.trans hto.trans
      noTimeOut := fun hwdt => hto.trans (h.noTimeOut hwdt) }
  memWrite _ m v h := h.memWrite m v

theorem State.InvPending.withWdt (h : s.InvPending) (v : Watchdog) : (s.withWdt v).InvPending := Inv.withWdt h v

/-- A watchdog clear clears PDF, which a running core need not have at 1. -/
theorem State.InvPending.clearWdt (h : s.InvPending) (hmode : s.mode = .running) : (clearWdt s).InvPending :=
  { h with haltedFlags := fun hhalted => (nomatch hmode.symm.trans hhalted), noTimeOut := fun _ => rfl }

theorem State.InvPending.clearWdtOtherMethod (h : s.InvPending) (hmode : s.mode = .running) :
    (clearWdtOtherMethod s).InvPending := by
  unfold Machine.clearWdtOtherMethod
  split
  · exact h.clearWdt hmode
  · exact h

theorem State.InvPending.clearWdtPair (h : s.InvPending) (hmode : s.mode = .running) (which : WdtLast) :
    (clearWdtPair which s).InvPending := by
  unfold Machine.clearWdtPair
  split
  · exact h
  · split
    · refine State.InvPending.withWdt ?_ _
      split
      · exact h
      · exact h.clearWdt hmode
    · exact h.clearWdtOtherMethod hmode

theorem State.InvPending.execClrWdt (h : s.InvPending) (hmode : s.mode = .running)
    (hexec : execClrWdt s = .next t) : t.InvPending := by
  cases hexec
  refine invPending_coreStable.charge 1 ?_
  split
  · exact h
  · split
    · exact h.clearWdtOtherMethod hmode
    · exact h.clearWdt hmode

theorem State.InvPending.execHalt (h : s.InvPending) (hexec : execHalt s = .next t) : t.InvPending := by
  cases hexec
  exact { h with haltedFlags := fun _ => ⟨rfl, rfl⟩, noTimeOut := fun _ => rfl }

/-- Every instruction of a running core keeps it: the four that write TO and PDF each for itself, the others by their
operations. -/
theorem State.InvPending.exec (h : s.InvPending) (hmode : s.mode = .running) {i : Instr} (hexec : exec i s = .next t) :
    t.InvPending := by
  by_cases hi : i ∈ watchdogInstrs
  · simp only [watchdogInstrs, List.mem_cons, List.not_mem_nil, or_false] at hi
    rcases hi with rfl | rfl | rfl | rfl
    · exact h.execClrWdt hmode hexec
    · cases hexec; exact invPending_coreStable.charge 1 (h.clearWdtPair hmode .first)
    · cases hexec; exact invPending_coreStable.charge 1 (h.clearWdtPair hmode .second)
    · exact h.execHalt hexec
  · exact invPending_coreStable.exec hi hexec h

/-- Settles O42: the core's part of a step ends in a state that has the invariant but for the cycles charged, and the
agents, who run those, keep it. -/
theorem stepKeepsInvariant : Obligations.StepKeepsInvariant := by
  intro s t h hstep
  rcases step_cases s hstep with ⟨-, rfl⟩ | ⟨-, k, -, rfl⟩ | ⟨hmode, -, i, u, -, hexec, -, rfl⟩
  · exact inv_agentStable.runAgents (invPending_coreStable.charge 1 h.pending)
  · exact inv_agentStable.runAgents (invPending_coreStable.enterInterrupt k h.pending)
  · have hfetch : (afterFetch s).InvPending := invPending_coreStable.pc s _ h.pending
    exact inv_agentStable.runAgents (hfetch.exec hmode hexec)

/-- Settles O43: the memories are empty, and no timer is on. -/
theorem resetMeetsInvariant : Obligations.ResetMeetsInvariant where
  stackDepth := Nat.zero_le 4
  ramForm := rfl
  ramBase := nofun
  programForm := rfl
  cellsForm := rfl
  cyclesRun := rfl
  haltedFlags := nofun
  noTimeOut _ := rfl
  pulse0 hp := absurd rfl hp
  pulse1 hp := absurd rfl hp
  event0 := nofun
  event1 := nofun

end Sys2Proof.Machine
end

section
/-! SUPPORT. What a register gives after a write, bit by bit, and that a write changes that register alone (R125, R126). -/

namespace Sys2Proof.Machine

/-! ## Well-formed positions -/

section
variable {c : Config}

/-- The four flags lie in bits 3..0 of STATUS. -/
theorem statusPos_lt (h : c.statusPosOk = true) :
    ∀ p ∈ [c.statusPos.ov, c.statusPos.z, c.statusPos.ac, c.statusPos.c], p < 4#3 := by
  simp only [Config.statusPosOk, Bool.and_eq_true, List.all_eq_true, decide_eq_true_eq] at h
  exact h.2

/-- The ranges of INTC_POS (R53), as propositions. -/
theorem intcPos_ranges (h : c.intcPosOk = true) :
    let q := c.intcPos
    q.eei = 1#3
    ∧ (q.et0i ≠ q.et1i ∧ (q.et0i = 2#3 ∨ q.et0i = 3#3) ∧ (q.et1i = 2#3 ∨ q.et1i = 3#3))
    ∧ (q.eif ≠ q.t0f ∧ q.eif ≠ q.t1f ∧ q.t0f ≠ q.t1f)
    ∧ ((4#3 ≤ q.eif ∧ q.eif ≤ 6#3) ∧ (4#3 ≤ q.t0f ∧ q.t0f ≤ 6#3) ∧ (4#3 ≤ q.t1f ∧ q.t1f ≤ 6#3))
    ∧ (q.eci ≠ q.cf ∧ (q.eci = 0#3 ∨ q.eci = 4#3) ∧ (q.cf = 0#3 ∨ q.cf = 4#3)) := by
  simpa [Config.intcPosOk, allDistinct, and_assoc] using h

/-- Whether `p` is one of INTC0's implemented bits (R55). -/
def isIntc0Bit (q : IntcPos) (p : BitNo) : Bool :=
  0 == p || q.eei == p || q.et0i == p || q.et1i == p || q.eif == p || q.t0f == p || q.t1f == p

/-- Whether `p` is one of INTC1's implemented bits (R56). -/
def isIntc1Bit (q : IntcPos) (p : BitNo) : Bool := q.eci == p || q.cf == p

/-- The seven fields of INTC0 take up bits 6..0 (R53). -/
theorem isIntc0Bit_of_lt (h : c.intcPosOk = true) {p : BitNo} (hp : p < 7#3) : isIntc0Bit c.intcPos p = true := by
  obtain ⟨heei, hetimers, hdistinct, hflags, -⟩ := intcPos_ranges h
  simp only [isIntc0Bit, Bool.or_eq_true, beq_iff_eq]
  bv_omega

/-- The two fields of INTC1 take up bits 4 and 0 (R53). -/
theorem isIntc1Bit_of_mem (h : c.intcPosOk = true) {p : BitNo} (hp : p = 0#3 ∨ p = 4#3) :
    isIntc1Bit c.intcPos p = true := by
  obtain ⟨-, -, -, -, hcomparator⟩ := intcPos_ranges h
  simp only [isIntc1Bit, Bool.or_eq_true, beq_iff_eq]
  bv_omega

end

/-! ## Bits of a written byte -/

section
variable (v : Byte) (p q : BitNo)

/-- A field that takes bit `q` of the byte and is read at `q` shows, at bit `p`, that bit if it is the field's. -/
theorem getBit_and_beq : (getBit v q && q == p) = (getBit v p && q == p) := by
  cases h : q == p with
  | false => simp
  | true => rw [eq_of_beq h]

theorem getLsbD_eq_getBit {i : Nat} (h : i < 8) : v.getLsbD i = getBit v (BitVec.ofNat 3 i) := by
  simp [getBit, Nat.mod_eq_of_lt h]

theorem ofNat_ne_of_ne_toNat {i : Nat} (h : i < 8) (hne : i ≠ p.toNat) : p ≠ BitVec.ofNat 3 i := by
  rintro rfl
  exact hne (by simp [Nat.mod_eq_of_lt h])

/-- The mode bits in a timer's control register (R58, R60). -/
def modeBits (mode : BitVec 2) : Byte := mode ++ 0#6

/-- The prescaler's bits in TMR0C (R58). -/
def pscBits (psc : BitVec 3) : Byte := 0#5 ++ psc

/-- A timer's mode bits, put back in place. -/
theorem getBit_modeBits : getBit (modeBits (v.extractLsb' 6 2)) p = (getBit v p && decide (6#3 ≤ p)) := by
  have hp : p.toNat < 8 := p.isLt
  unfold modeBits getBit
  rw [BitVec.getLsbD_append, BitVec.getLsbD_extractLsb', BitVec.getLsbD_zero]
  by_cases hlow : p.toNat < 6
  · simp [hlow, BitVec.le_def]
  · rw [if_neg hlow, Nat.add_sub_cancel' (by omega), decide_eq_true (by omega), decide_eq_true (by bv_omega), Bool.true_and,
      Bool.and_true]

/-- Timer 0's prescaler bits, put back in place. -/
theorem getBit_pscBits : getBit (pscBits (v.extractLsb' 0 3)) p = (getBit v p && decide (p < 3#3)) := by
  unfold pscBits getBit
  rw [BitVec.getLsbD_append, BitVec.getLsbD_extractLsb', BitVec.getLsbD_zero]
  by_cases hlow : p.toNat < 3 <;> simp [hlow, BitVec.lt_def]

end

/-! ## The registers with fields -/

section
variable (s : State) (v : Byte) {p : BitNo}

theorem getBit_statusByte (p : BitNo) :
    getBit (statusByte s) p =
      ((getBit (Config.freeRead s.draws) p && getBit 0xC0#8 p) || (s.status.timeOut && 5 == p) || (s.status.pdf && 4 == p)
        || (s.status.ov && s.cfg.statusPos.ov == p) || (s.status.z && s.cfg.statusPos.z == p)
        || (s.status.ac && s.cfg.statusPos.ac == p) || (s.status.c && s.cfg.statusPos.c == p)) := by
  simp [statusByte]

/-- R47: each of the four flags is read back. -/
theorem getBit_status_written (h : s.cfg.statusPosOk = true)
    (hp : p ∈ [s.cfg.statusPos.ov, s.cfg.statusPos.z, s.cfg.statusPos.ac, s.cfg.statusPos.c]) :
    getBit (regValue (regWrite s v .status) .status) p = getBit v p := by
  have hlow : getBit 0xC0#8 p = false ∧ (5 == p) = false ∧ (4 == p) = false := by
    have hlt := statusPos_lt h p hp
    revert hlt
    exact (by decide : ∀ p : BitNo, p < 4#3 → getBit 0xC0#8 p = false ∧ (5 == p) = false ∧ (4 == p) = false) p
  have hflag : (s.cfg.statusPos.ov == p || s.cfg.statusPos.z == p || s.cfg.statusPos.ac == p || s.cfg.statusPos.c == p)
      = true := by
    simp only [List.mem_cons, List.not_mem_nil, or_false] at hp
    rcases hp with rfl | rfl | rfl | rfl <;> simp
  obtain ⟨hfree, hto, hpdf⟩ := hlow
  simp only [regValue, regWrite, getBit_statusByte, State.withStatus_status, State.withStatus_cfg, State.withStatus_draws,
    statusWritten, getBit_and_beq v p, hfree, hto, hpdf, Bool.and_false, Bool.false_or, ← Bool.and_or_distrib_left, hflag,
    Bool.and_true]

/-- R47: TO and PDF are read at bits 5 and 4, where none of the four flags stands. -/
theorem getBit_status_protected (h : s.cfg.statusPosOk = true) :
    getBit (statusByte s) 5#3 = s.status.timeOut ∧ getBit (statusByte s) 4#3 = s.status.pdf := by
  have hlt := statusPos_lt h
  have hne (p : BitNo) (hp : p ∈ [s.cfg.statusPos.ov, s.cfg.statusPos.z, s.cfg.statusPos.ac, s.cfg.statusPos.c]) :
      (p == 5#3) = false ∧ (p == 4#3) = false :=
    (by decide : ∀ p : BitNo, p < 4#3 → (p == 5#3) = false ∧ (p == 4#3) = false) p (hlt p hp)
  simp only [List.forall_mem_cons] at hne
  obtain ⟨⟨hov5, hov4⟩, ⟨hz5, hz4⟩, ⟨hac5, hac4⟩, ⟨hc5, hc4⟩, -⟩ := hne
  simp +decide [getBit_statusByte, hov5, hov4, hz5, hz4, hac5, hac4, hc5, hc4]

theorem getBit_intc0_written (h : isIntc0Bit s.cfg.intcPos p = true) :
    getBit (regValue (regWrite s v .intc0) .intc0) p = getBit v p := by
  unfold isIntc0Bit at h
  simp only [regValue, regWrite, intc0Byte, intc0Written, State.withIntc_intc, State.withIntc_cfg, getBit_select, getBit_or,
    getBit_bitAt, getBit_and_beq v p, Bool.true_and, ← Bool.and_or_distrib_left, h, if_true, Bool.and_true]

theorem getBit_intc1_written (h : isIntc1Bit s.cfg.intcPos p = true) :
    getBit (regValue (regWrite s v .intc1) .intc1) p = getBit v p := by
  unfold isIntc1Bit at h
  simp only [regValue, regWrite, intc1Byte, intc1Written, State.withIntc_intc, State.withIntc_cfg, getBit_select, getBit_or,
    getBit_bitAt, getBit_and_beq v p, Bool.true_and, ← Bool.and_or_distrib_left, h, if_true, Bool.and_true]

theorem tmr0cByte_eq : tmr0cByte s =
    modeBits s.tmr0.mode ||| bitAt 4 s.tmr0.on ||| bitAt 3 s.tmr0.edge ||| pscBits s.tmr0.psc
      ||| (Config.freeRead s.draws &&& 0x20#8) := rfl

theorem tmr1cByte_eq : tmr1cByte s =
    modeBits s.tmr1.mode ||| bitAt 4 s.tmr1.on ||| bitAt 3 s.tmr1.edge ||| (Config.freeRead s.draws &&& 0x27#8) := rfl

/-- R58: all of TMR0C but bit 5 is read back. -/
theorem getBit_tmr0c_written (hp : p ≠ 5) : getBit (regValue (regWrite s v .tmr0c) .tmr0c) p = getBit v p := by
  have hfield : (decide (6#3 ≤ p) || 4 == p || 3 == p || decide (p < 3#3)) = true ∧ getBit 0x20#8 p = false := by
    revert p
    decide
  simp only [regValue, regWrite, tmr0cByte_eq, tmr0cWritten, State.withTmr0_tmr0, getBit_or, getBit_and, getBit_bitAt,
    getBit_modeBits, getBit_pscBits, getBit_and_beq v p, ← Bool.and_or_distrib_left, hfield, Bool.and_true, Bool.and_false,
    Bool.or_false]

/-- R60: bits 7, 6, 4 and 3 of TMR1C are read back. -/
theorem getBit_tmr1c_written (hp : p = 3 ∨ p = 4 ∨ p = 6 ∨ p = 7) :
    getBit (regValue (regWrite s v .tmr1c) .tmr1c) p = getBit v p := by
  have hfield : (decide (6#3 ≤ p) || 4 == p || 3 == p) = true ∧ getBit 0x27#8 p = false := by
    revert p
    decide
  simp only [regValue, regWrite, tmr1cByte_eq, tmr1cWritten, State.withTmr1_tmr1, getBit_or, getBit_and, getBit_bitAt,
    getBit_modeBits, getBit_and_beq v p, ← Bool.and_or_distrib_left, hfield, Bool.and_true, Bool.and_false,
    Bool.or_false]

/-- An analog register gives its stored byte but for the output flag (U15). -/
theorem getBit_analogByte (q : AnalogPos) (hp : q.flag ≠ p) : getBit (analogByte s q v) p = getBit v p := by
  simp [analogByte, hp]

/-- MISC gives its stored byte but for the comparator's output flag (R372). -/
theorem getBit_misc_written (hp : s.cfg.miscPos.flag ≠ p) :
    getBit (regValue (regWrite s v .misc) .misc) p = getBit v p :=
  getBit_putBit_of_ne v hp _

end

/-! ## The frame of a write -/

section
variable (s : State) (v : Byte)

/-- A write of PCL stays in the page of PC (R33). -/
theorem page_append (page : BitVec 3) : (page ++ v).extractLsb' 8 3 = page := by
  refine BitVec.eq_of_getLsbD_eq fun i hi => ?_
  rw [BitVec.getLsbD_extractLsb', BitVec.getLsbD_append]
  simp [hi]

/-- A write of PCL gives the low byte of PC. -/
theorem low_append (page : BitVec 3) : (page ++ v).extractLsb' 0 8 = v := by
  refine BitVec.eq_of_getLsbD_eq fun i hi => ?_
  rw [BitVec.getLsbD_extractLsb', BitVec.getLsbD_append]
  simp [hi]

/-- An event is kept or dropped (log 48). -/
theorem and_eq_or_eq_false (event a b c : Bool) :
    (event && a && b && c) = event ∨ (event && a && b && c) = false := by
  rw [Bool.and_assoc, Bool.and_assoc]
  cases a && (b && c) <;> simp

/-- A write of a register changes that register and nothing else. -/
theorem regWrite_frame (r : Sfr) : RegisterFrame s r (regWrite s v r) := by
  cases r with
  | pcl => exact ⟨rfl, page_append v _⟩
  | tmr0c =>
    refine ⟨rfl, ?prescaler, ?pulse, ?event⟩
    case prescaler =>
      rintro (hon | hoff)
      · simp [regWrite, tmr0cWritten, hon]
      · have hbit : getBit v 4#3 = false := hoff
        simp [regWrite, tmr0cWritten, hbit]
    case pulse => exact ite_eq_or_eq ..
    case event => exact and_eq_or_eq_false _ _ _ _
  | tmr1c =>
    refine ⟨rfl, ?pulse, ?event⟩
    case pulse => exact ite_eq_or_eq ..
    case event => exact and_eq_or_eq_false _ _ _ _
  | _ => rfl

end

/-- The registers that are plain storage give the byte. -/
theorem regValue_storage_written (s : State) (v : Byte) :
    ∀ r ∈ [Sfr.acc, .pcl, .tblp, .wdts, .pac, .pbc], regValue (regWrite s v r) r = v := by
  simp only [List.forall_mem_cons]
  exact ⟨rfl, low_append v _, rfl, rfl, rfl, rfl, nofun⟩

/-- MP gives the byte with bit 7 at 1 (R49). -/
theorem regValue_mp_written (s : State) (v : Byte) : regValue (regWrite s v .mp) .mp = (v ||| 0x80#8) := by
  revert v
  exact (by decide : ∀ v : Byte, 1#1 ++ v.extractLsb' 0 7 = (v ||| 0x80#8))

/-- Settles O13, register by register. -/
theorem registerReadBack : Obligations.RegisterReadBack := by
  intro s v hwf
  simp only [Config.wf, Bool.and_eq_true] at hwf
  obtain ⟨⟨⟨⟨⟨⟨-, hstatus⟩, hintc⟩, -⟩, -⟩, -⟩, -⟩ := hwf
  have hprotected := getBit_status_protected (regWrite s v .status) hstatus
  refine ⟨regValue_storage_written s v, regValue_mp_written s v, ?notWritten, rfl, ?tblh,
    fun p hp => getBit_status_written s v hstatus hp, hprotected.1, hprotected.2, ?intc0, ?intc1, ?tmr0c, ?tmr1c,
    ?misc, ?opac1, ?opac2, ?opac3, ?cmpc, regWrite_frame s v⟩
  case notWritten =>
    simp only [List.forall_mem_cons]
    exact ⟨rfl, rfl, nofun⟩
  case tblh => exact BitVec.getLsbD_append
  case intc0 =>
    intro i hi
    rw [getLsbD_eq_getBit _ (by omega), getLsbD_eq_getBit _ (by omega)]
    exact getBit_intc0_written s v (isIntc0Bit_of_lt hintc (by bv_omega))
  case intc1 =>
    intro i hi
    obtain ⟨hlt, hbit⟩ := (by decide : ∀ i ∈ [0, 4], i < 8 ∧ (BitVec.ofNat 3 i = 0#3 ∨ BitVec.ofNat 3 i = 4#3)) i hi
    rw [getLsbD_eq_getBit _ hlt, getLsbD_eq_getBit _ hlt]
    exact getBit_intc1_written s v (isIntc1Bit_of_mem hintc hbit)
  case tmr0c =>
    intro i hi
    obtain ⟨hlt, hbit⟩ := (by decide : ∀ i ∈ [0, 1, 2, 3, 4, 6, 7], i < 8 ∧ BitVec.ofNat 3 i ≠ 5) i hi
    rw [getLsbD_eq_getBit _ hlt, getLsbD_eq_getBit _ hlt]
    exact getBit_tmr0c_written s v hbit
  case tmr1c =>
    intro i hi
    obtain ⟨hlt, hbit⟩ := (by decide : ∀ i ∈ [3, 4, 6, 7], i < 8 ∧ (BitVec.ofNat 3 i = 3 ∨ BitVec.ofNat 3 i = 4
      ∨ BitVec.ofNat 3 i = 6 ∨ BitVec.ofNat 3 i = 7)) i hi
    rw [getLsbD_eq_getBit _ hlt, getLsbD_eq_getBit _ hlt]
    exact getBit_tmr1c_written s v hbit
  case misc =>
    intro i hi hne
    rw [getLsbD_eq_getBit _ hi, getLsbD_eq_getBit _ hi]
    exact getBit_misc_written s v (ofNat_ne_of_ne_toNat _ hi hne)
  case opac1 | opac2 | opac3 | cmpc =>
    intro i hi hne
    rw [getLsbD_eq_getBit _ hi, getLsbD_eq_getBit _ hi]
    exact getBit_analogByte _ v _ (ofNat_ne_of_ne_toNat _ hi hne)

end Sys2Proof.Machine
end

section
/-! SUPPORT. RAM and undefined locations (R36, R52, R127), and the flag-writing instructions with STATUS as destination (R47,
U6). -/

namespace Sys2Proof.Machine

variable (s : State) (m : DAddr) (v : Byte)

/-! ## Data memory -/

/-- A byte written to RAM is read back. -/
theorem memValue_memWrite_same (hm : target s m = .ram) (hwf : Memory.wf 128 s.ram = true) :
    memValue (memWrite s m v) m = v := by
  rw [memWrite_of_ram s hm, memValue_of_ram _ (by simpa using hm), State.withRam_ram, effAddr_withRam]
  exact Memory.read_write_same hwf _ v

/-- A write to RAM leaves every other RAM location. -/
theorem memValue_memWrite_other {n : DAddr} (hm : target s m = .ram) (hn : target s n = .ram)
    (hne : effAddr s n ≠ effAddr s m) : memValue (memWrite s m v) n = memValue s n := by
  rw [memWrite_of_ram s hm, memValue_of_ram _ (by simpa using hn), memValue_of_ram s hn, State.withRam_ram,
    effAddr_withRam]
  exact Memory.read_write_other _ (fun h => hne (BitVec.eq_of_toNat_eq h)) v

/-- The default map, address by address (log 2). -/
theorem locate_default_undefined : ∀ a : DAddr, locate defaultConfig a = .undefined ↔
    (0x02 ≤ a.toNat ∧ a.toNat ≤ 0x04) ∨ (0x1B ≤ a.toNat ∧ a.toNat ≤ 0x3F) := by
  decide

theorem locate_default_ram : ∀ a : DAddr, locate defaultConfig a = .ram ↔ 0x40 ≤ a.toNat := by
  decide

/-- Settles O12. -/
theorem dataMemoryLocations : Obligations.DataMemoryLocations :=
  ⟨fun s m v hm hwf => ⟨memValue_memWrite_same s m v hm hwf,
      fun _ hn hne => memValue_memWrite_other s m v hm hn hne⟩,
    fun s _ v hm => ⟨memValue_of_undefined s hm, memWrite_of_undefined s hm v⟩,
    locate_default_undefined, locate_default_ram⟩

/-! ## STATUS as the destination of an operation that writes flags -/

/-- `t` is `s` one cycle later with OV, Z, AC and C at the free values of U6. -/
def FreeFlagsOutcome (s t : State) : Prop := t = (s.withStatus (freeStatus s)).withCycles (s.cycles + 1)

variable {s m}

theorem resultToMem_status (h : target s m = .reg .status) {o : AluOut} (hw : o.flags.writes = true) :
    resultToMem s m o = s.withStatus (freeStatus s) := by
  simp [resultToMem, h, hw]

theorem writeOnly_status (h : target s m = .reg .status) {o : AluOut} (hw : o.flags.writes = true) :
    FreeFlagsOutcome s (writeOnly o m s) := by
  unfold FreeFlagsOutcome writeOnly
  rw [resultToMem_status h hw]
  rfl

theorem readModifyWrite_status (h : target s m = .reg .status) {f : Byte → AluOut}
    (hw : (f (memValue s m)).flags.writes = true) : FreeFlagsOutcome s (readModifyWrite f m s) := by
  unfold FreeFlagsOutcome readModifyWrite
  rw [afterRead_of_ne s m (by simp [h]), resultToMem_status h hw]
  rfl

/-- Settles O27: all thirteen deliver a result with flags to `[m]`, DAA without reading it. -/
theorem flagWritersToStatus : Obligations.FlagWritersToStatus := by
  intro s m i h hi
  suffices hfree : ∃ t, exec i s = .next t ∧ FreeFlagsOutcome s t by
    obtain ⟨t, hexec, rfl⟩ := hfree
    exact ⟨_, hexec, rfl, rfl, rfl, rfl, rfl, rfl, rfl⟩
  simp only [List.mem_cons, List.not_mem_nil, or_false] at hi
  rcases hi with rfl | rfl | rfl | rfl | rfl | rfl | rfl | rfl | rfl | rfl | rfl | rfl | rfl
  on_goal 13 => exact ⟨_, rfl, writeOnly_status h rfl⟩
  all_goals exact ⟨_, rfl, readModifyWrite_status h rfl⟩

end Sys2Proof.Machine
end

section
/-! SUPPORT. The columns of R79: the four full resets, and the warm reset of a halted core. -/

namespace Sys2Proof.Machine

variable (s : State)

/-- The registers that all four full resets set, whatever else they do (R79). -/
theorem controlReset_resetPlatform (k : ResetKind) : ControlReset (resetPlatform (resetCommon k s)) where
  core := ⟨rfl, rfl, rfl⟩
  interrupts := rfl
  watchdog := ⟨rfl, rfl, rfl⟩
  timer0 := ⟨rfl, rfl, rfl, rfl, rfl⟩
  timer1 := ⟨rfl, rfl, rfl⟩
  ports := ⟨rfl, rfl, rfl, rfl⟩
  analog := ⟨rfl, rfl, rfl, rfl, rfl⟩

/-- What a power-on does besides leaves them (R421). -/
theorem ControlReset.resetContents {s : State} (h : ControlReset s) : ControlReset (resetContents s) := { h with }

theorem controlReset_powerOn : ControlReset (applyReset .powerOn s) :=
  (controlReset_resetPlatform s .powerOn).resetContents

/-- A full reset other than power-on: it sets TO and PDF as R46 says and keeps the four flags. -/
theorem fullReset_resetPlatform {k : ResetKind} (hk : k ≠ .powerOn) : FullReset s (resetPlatform (resetCommon k s)) where
  control := controlReset_resetPlatform s k
  kept := ⟨rfl, rfl, rfl, rfl, rfl, rfl, rfl, rfl⟩
  flags := by
    cases k with
    | powerOn => exact absurd rfl hk
    | wdtRunning | resRunning | resHalted | wdtHalted => exact ⟨rfl, rfl, rfl, rfl⟩

/-! ## The column by the core's mode -/

variable {s}

theorem resReset_of_running (h : s.mode = .running) : resReset s = applyReset .resRunning s := by simp [resReset, h]
theorem resReset_of_halted (h : s.mode = .halted) : resReset s = applyReset .resHalted s := by simp [resReset, h]
theorem wdtReset_of_running (h : s.mode = .running) : wdtReset s = applyReset .wdtRunning s := by simp [wdtReset, h]
theorem wdtReset_of_halted (h : s.mode = .halted) : wdtReset s = applyReset .wdtHalted s := by simp [wdtReset, h]

theorem eepromPowerUp_cells_of_idle {d : Nat} {e : Eeprom} (h : e.busy = 0) : (eepromPowerUp d e).cells = e.cells := by
  simp [eepromPowerUp, h]

/-- Settles O53, column by column. -/
theorem resetColumns : Obligations.ResetColumns := by
  intro s
  refine ⟨?running, ?halted, controlReset_powerOn s, rfl, rfl, rfl, rfl, eepromPowerUp_cells_of_idle⟩
  case running =>
    intro h
    rw [resReset_of_running h, wdtReset_of_running h]
    exact ⟨fullReset_resetPlatform s (by decide), rfl, fullReset_resetPlatform s (by decide), rfl⟩
  case halted =>
    intro h
    rw [resReset_of_halted h, wdtReset_of_halted h]
    exact ⟨fullReset_resetPlatform s (by decide), rfl, rfl, rfl, rfl, _, rfl⟩

/-- Settles O54: the state is written out, and the flags and enables are those of the four sources. -/
theorem resetState : Obligations.ResetState := by
  refine ⟨rfl, rfl, rfl, rfl, rfl, rfl, rfl, ?flags, ?enables, rfl, rfl, rfl, rfl, rfl, rfl, rfl, rfl, rfl, rfl, rfl, rfl⟩
  case flags => intro k; cases k <;> rfl
  case enables => intro k; cases k <;> rfl

end Sys2Proof.Machine
end

section
/-! SUPPORT. Indirect addressing (R124): an operand form depends on its address only through the effective address, and IAR
has that of MP. -/

namespace Sys2Proof.Machine

variable {s : State} {m n : DAddr}

/-! ## Two addresses with one effective address -/

theorem target_congr (h : effAddr s m = effAddr s n) : target s m = target s n := by simp only [target, h]

theorem memValue_congr (h : effAddr s m = effAddr s n) : memValue s m = memValue s n := by
  simp only [memValue, target_congr h, h]

theorem afterRead_congr (h : effAddr s m = effAddr s n) : afterRead s m = afterRead s n := by
  simp only [afterRead, target_congr h]

theorem memWrite_congr (h : effAddr s m = effAddr s n) (v : Byte) : memWrite s m v = memWrite s n v := by
  simp only [memWrite, target_congr h, h]

theorem resultToMem_congr (h : effAddr s m = effAddr s n) (o : AluOut) : resultToMem s m o = resultToMem s n o := by
  simp only [resultToMem, target_congr h, memWrite_congr h]

theorem readToAcc_congr (h : effAddr s m = effAddr s n) (f : Byte → AluOut) : readToAcc f m s = readToAcc f n s := by
  simp only [readToAcc, memValue_congr h, afterRead_congr h]

theorem writeOnly_congr (h : effAddr s m = effAddr s n) (o : AluOut) : writeOnly o m s = writeOnly o n s := by
  simp only [writeOnly, resultToMem_congr h]

/-- The read leaves the effective address of the write. -/
theorem readModifyWrite_congr (h : effAddr s m = effAddr s n) (f : Byte → AluOut) :
    readModifyWrite f m s = readModifyWrite f n s := by
  have hwrite : effAddr (afterRead s n) m = effAddr (afterRead s n) n := by simpa using h
  simp only [readModifyWrite, memValue_congr h, afterRead_congr h, resultToMem_congr hwrite]

theorem modifyAndSkip_congr (h : effAddr s m = effAddr s n) (f : Byte → Byte) :
    modifyAndSkip f m s = modifyAndSkip f n s := by
  simp only [modifyAndSkip, skipOnZeroResult, memValue_congr h, target_congr h, readModifyWrite_congr h]

/-! ## IAR and MP -/

theorem effAddr_of_iar (h : locate s.cfg m = .reg .iar) : effAddr s m = s.mp := if_pos h

/-- MP's own address is taken as it is, also when it is IAR's: one level only (D11). -/
theorem effAddr_mp : effAddr s s.mp = s.mp := ite_self _

/-- IAR has the effective address of MP. -/
theorem effAddr_iar_eq_effAddr_mp (h : locate s.cfg m = .reg .iar) : effAddr s m = effAddr s s.mp :=
  (effAddr_of_iar h).trans effAddr_mp.symm

/-- With MP at IAR the operand is IAR itself. -/
theorem target_of_iar_iar (hm : locate s.cfg m = .reg .iar) (hmp : locate s.cfg s.mp = .reg .iar) :
    target s m = .reg .iar := by
  rw [target, effAddr_of_iar hm, hmp]

/-- IAR itself reads 00H (D11). -/
theorem readToAcc_unflagged_iar (h : target s m = .reg .iar) :
    readToAcc unflagged m s = (s.withAcc 0x00#8).withCycles (s.cycles + 1) := by
  rw [readToAcc, memValue_of_reg s h, afterRead_of_ne s m (by simp [h])]
  rfl

/-- A write of IAR itself only takes its cycle (D11). -/
theorem writeOnly_unflagged_iar (h : target s m = .reg .iar) (v : Byte) :
    writeOnly (unflagged v) m s = s.withCycles (s.cycles + 1) := by
  rw [writeOnly, resultToMem_unflagged, memWrite_of_reg s h]
  rfl

/-- Settles O14: the four forms see their operand only through the effective address, which is MP's; where that is IAR
itself, by what a read and a write of IAR do. -/
theorem indirectAddressing : Obligations.IndirectAddressing := by
  intro s m hm
  refine ⟨fun _ => ?throughMp, fun hmp => ?iarItself⟩
  case throughMp =>
    have haddr : effAddr s m = effAddr s s.mp := effAddr_iar_eq_effAddr_mp hm
    exact ⟨congrArg Host.Outcome.next (readToAcc_congr haddr _), congrArg Host.Outcome.next (writeOnly_congr haddr _),
      congrArg Host.Outcome.next (readModifyWrite_congr haddr _), congrArg Host.Outcome.next (modifyAndSkip_congr haddr _)⟩
  case iarItself =>
    have htarget : target s m = .reg .iar := target_of_iar_iar hm hmp
    exact ⟨congrArg Host.Outcome.next (readToAcc_unflagged_iar htarget),
      congrArg Host.Outcome.next (writeOnly_unflagged_iar htarget _)⟩

end Sys2Proof.Machine
end

section
/-! SUPPORT. The words of no instruction (R170): where each level of the decoder rejects a word, what a lookup finds in a
configured table (R160), and that a step refuses a word its ENC rejects (D5). -/

namespace Sys2Proof

/-! ## The fields the decoder looks at, as numbers -/

variable (w : PWord)

theorem toNat_field (start len : Nat) : (w.extractLsb' start len).toNat = w.toNat / 2 ^ start % 2 ^ len := by
  rw [BitVec.extractLsb'_toNat, Nat.shiftRight_eq_div_pow]

theorem bit14_iff : w.getLsbD 14 = true ↔ 0x4000 ≤ w.toNat := by
  rw [← BitVec.msb_eq_getLsbD_last w, BitVec.msb_eq_decide, decide_eq_true_iff]

/-! ## The levels of the assigned encoding's decoder

The last arm of a level's `match` learns `_ = n → False` for each arm before it; `imp_false` turns these into the `¬` that
`omega` reads. -/

theorem ok_ne_error (i : Instr) : ¬∃ e : DecodeError, Except.ok i = .error e := by
  rintro ⟨e, ⟨⟩⟩

variable {w}

/-- Format N has the words 0 to 6 (R165). -/
theorem decodeWhole_error_iff : (∃ e, decodeWhole w = .error e) ↔ 7 ≤ w.toNat := by
  unfold decodeWhole
  split
  case h_8 =>
    simp only [imp_false] at *
    exact iff_of_true ⟨_, rfl⟩ (by omega)
  all_goals exact iff_of_false (ok_ne_error _) (by omega)

/-- The operations that format M leaves free (R166); those of formats N and I are among them. -/
theorem decodeM_error_iff : (∃ e, decodeM w = .error e) ↔
    (w.extractLsb' 7 7).toNat = 0x00 ∨ (0x0F ≤ (w.extractLsb' 7 7).toNat ∧ (w.extractLsb' 7 7).toNat ≤ 0x1F)
      ∨ (w.extractLsb' 7 7).toNat = 0x38 ∨ (w.extractLsb' 7 7).toNat = 0x39 ∨ (w.extractLsb' 7 7).toNat = 0x3C
      ∨ 0x40 ≤ (w.extractLsb' 7 7).toNat := by
  unfold decodeM
  split
  case h_44 =>
    simp only [imp_false] at *
    exact iff_of_true ⟨_, rfl⟩ (by omega)
  all_goals exact iff_of_false (ok_ne_error _) (by omega)

/-- Below 2000H formats N, I and M leave the first four ranges of R170. -/
theorem decodeLow_error_iff (hw : w.toNat < 0x2000) : (∃ e, decodeLow w = .error e) ↔
    (0x0007 ≤ w.toNat ∧ w.toNat ≤ 0x007F) ∨ (0x0780 ≤ w.toNat ∧ w.toNat ≤ 0x08FF)
      ∨ (0x1C00 ≤ w.toNat ∧ w.toNat ≤ 0x1CFF) ∨ (0x1E00 ≤ w.toNat ∧ w.toNat ≤ 0x1E7F) := by
  have hop : (w.extractLsb' 7 7).toNat = w.toNat / 128 % 128 := toNat_field w 7 7
  have himm : (w.extractLsb' 8 6).toNat = w.toNat / 256 % 64 := toNat_field w 8 6
  unfold decodeLow
  split
  case isTrue hzero =>
    rw [hzero, BitVec.toNat_ofNat] at hop
    rw [decodeWhole_error_iff]
    omega
  case isFalse hzero =>
    have hnonzero : (w.extractLsb' 7 7).toNat ≠ 0 := fun h => hzero (BitVec.eq_of_toNat_eq h)
    split
    case h_8 =>
      simp only [imp_false] at *
      rw [decodeM_error_iff]
      omega
    all_goals exact iff_of_false (ok_ne_error _) (by omega)

/-- R170: the words the assigned encoding leaves free. -/
theorem decode_error_iff : (∃ e, decode w = .error e) ↔
    (0x0007 ≤ w.toNat ∧ w.toNat ≤ 0x007F) ∨ (0x0780 ≤ w.toNat ∧ w.toNat ≤ 0x08FF)
      ∨ (0x1C00 ≤ w.toNat ∧ w.toNat ≤ 0x1CFF) ∨ (0x1E00 ≤ w.toNat ∧ w.toNat ≤ 0x1E7F) ∨ 0x4000 ≤ w.toNat := by
  have hformat : (w.extractLsb' 11 3).toNat = w.toNat / 2048 % 8 := toNat_field w 11 3
  unfold decode
  split
  case isTrue hbit14 =>
    rw [bit14_iff] at hbit14
    exact iff_of_true ⟨_, rfl⟩ (by omega)
  case isFalse hbit14 =>
    rw [bit14_iff] at hbit14
    split
    case h_5 =>
      simp only [imp_false] at *
      rw [decodeLow_error_iff (by omega)]
      omega
    all_goals exact iff_of_false (ok_ne_error _) (by omega)

/-! ## A configured table -/

/-- In a table that lists no key twice, a lookup finds exactly the listed pairs. -/
theorem lookup_eq_some_iff_mem {α β : Type} [DecidableEq α] {table : List (α × β)} (hnodup : (table.map (·.1)).Nodup)
    (a : α) (b : β) : table.lookup a = some b ↔ (a, b) ∈ table := by
  induction table with
  | nil => simp
  | cons p rest ih =>
    obtain ⟨key, value⟩ := p
    obtain ⟨hfresh, hrest⟩ := List.nodup_cons.mp hnodup
    by_cases hkey : a = key
    · subst hkey
      have hunlisted : (a, b) ∉ rest := fun h => hfresh (List.mem_map.mpr ⟨_, h, rfl⟩)
      simp [hunlisted, eq_comm]
    · have hbeq : (a == key) = false := beq_false_of_ne hkey
      simp [List.lookup_cons, hbeq, hkey, ih hrest]

theorem decodeWith_words_ok_iff {table : List (PWord × Instr)} {i : Instr} :
    decodeWith (.words table) w = .ok i ↔ table.lookup w = some i := by
  unfold decodeWith
  cases h : table.lookup w <;> simp [h]

end Sys2Proof

namespace Sys2Proof.Machine

/-- D5, U1: a fetched word that is no instruction refuses the step. -/
theorem step_of_decode_error {s : State} {e : DecodeError} (hmode : s.mode = .running) (hirq : acceptable s = none)
    (hdecode : decodeWith s.cfg.enc (fetchWord s) = .error e) :
    step s = .refused (.unassignedWord (fetchWord s)) := by
  simp only [step, hmode, hirq, hdecode]

/-- Settles O3: the ranges by the decoder's levels, the refusal by the step, and a table's words by its lookup. -/
theorem unassignedWordsRefused : Obligations.UnassignedWordsRefused := by
  refine ⟨fun _ => decode_error_iff, ?refused, fun _ => rfl, ?table⟩
  case refused =>
    rintro s hmode hirq ⟨e, hdecode⟩
    exact step_of_decode_error hmode hirq hdecode
  case table =>
    intro table hnodup w i
    rw [decodeWith_words_ok_iff, lookup_eq_some_iff_mem hnodup]

end Sys2Proof.Machine
end

section
/-! SUPPORT. The arithmetic and logic results as the claims say them (40_arithmetic.md R200 to R202, R214; 41_logic.md R220):
the adder against exact integers, subtraction as an addition of the complement, DAA's two adjustments; and a flagged result
stored without a read of its operand. -/

namespace Sys2Proof.Machine

/-! ## The adder -/

section
variable (a b : Byte) (cin : Bool) (f : Status)

/-- R200: signed overflow is a carry into bit 7 that differs from the carry out of it. -/
theorem signedOverflow_iff_carries_differ :
    ¬(128 ≤ a.toNat % 128 + b.toNat % 128 + cin.toNat ↔ 256 ≤ a.toNat + b.toNat + cin.toNat) ↔
      (a.toInt + b.toInt + cin.toNat < -128 ∨ 127 < a.toInt + b.toInt + cin.toNat) := by
  have ha := a.isLt
  have hb := b.isLt
  have hcin := cin.toNat_le
  rw [BitVec.toInt_eq_toNat_cond, BitVec.toInt_eq_toNat_cond]
  split <;> split <;> omega

/-- `add8` gives the exact sum and its flags (R200, R202). -/
theorem add8_sumSpec : SumSpec a b cin (add8 a b cin).value f ((add8 a b cin).flags.apply f) where
  value := BitVec.toNat_ofNat _ 8
  carry := decide_eq_true_iff
  half := decide_eq_true_iff
  overflow := by
    rw [← signedOverflow_iff_carries_differ]
    exact Bool.xor_iff_ne.trans (not_congr decide_eq_decide)
  zero := by simp [add8, FlagUpdate.apply, BitVec.toNat_eq]
  pdf := rfl
  timeOut := rfl

end

section
variable {a b r : Byte} {cin : Bool} {f g : Status}

/-- R201: a sum with the one's complement is a difference, the carry being no borrow. -/
theorem SumSpec.diffSpec (h : SumSpec a (~~~b) cin r f g) : DiffSpec a b (!cin) r f g := by
  have ha := a.isLt
  have hb := b.isLt
  have hnot : (~~~b).toNat = 255 - b.toNat := BitVec.toNat_not
  have hnotInt : (~~~b).toInt = -1 - b.toInt := by
    rw [BitVec.toInt_eq_toNat_cond, BitVec.toInt_eq_toNat_cond, hnot]
    split <;> split <;> omega
  have hcin : cin.toNat + (!cin).toNat = 1 := by cases cin <;> rfl
  obtain ⟨hvalue, hcarry, hhalf, hoverflow, hzero, hpdf, htimeOut⟩ := h
  rw [hnot] at hvalue hcarry hhalf
  rw [hnotInt] at hoverflow
  refine ⟨?_, hcarry.trans ?_, hhalf.trans ?_, hoverflow.trans ?_, hzero, hpdf, htimeOut⟩ <;> omega

end

theorem sub8_diffSpec (a b : Byte) (cin : Bool) (f : Status) :
    DiffSpec a b (!cin) (sub8 a b cin).value f ((sub8 a b cin).flags.apply f) :=
  (add8_sumSpec a (~~~b) cin f).diffSpec

/-! ## Logic -/

/-- A bitwise result with Z, as the claims say it (R220). -/
theorem zeroFlagged_logicSpec {op : Bool → Bool → Bool} {a b r : Byte}
    (hbits : ∀ i, i < 8 → r.getLsbD i = op (a.getLsbD i) (b.getLsbD i)) (f : Status) :
    LogicSpec op a b (zeroFlagged r).value f ((zeroFlagged r).flags.apply f) where
  bits := hbits
  zero := by simp [zeroFlagged, FlagUpdate.apply, BitVec.toNat_eq]
  rest := rfl

/-! ## Decimal adjustment -/

section
variable (a : Byte) (ac c : Bool)

/-- What DAA adds to the low nibble (R214). -/
def daaLow : Nat := if decide (9 < a.toNat % 16) || ac then 0x06 else 0

theorem daaLow_eq : daaLow a ac = if 9 < a.toNat % 16 ∨ ac = true then 0x06 else 0 := by
  simp [daaLow]

/-- Whether DAA adjusts the high nibble: the test sees the low adjustment (D17). -/
def daaCarry : Bool := decide (9 < (a.toNat + daaLow a ac) / 16) || c

/-- What DAA adds to the high nibble (R214). -/
def daaHigh : Nat := if daaCarry a ac c then 0x60 else 0

theorem daaCarry_iff : daaCarry a ac c = true ↔ 9 < (a.toNat + daaLow a ac) / 16 ∨ c = true := by
  simp [daaCarry]

/-- R214: the two adjustments are added, and C tells the second. -/
theorem daaOut_eq : daaOut a ac c =
    carryFlagged (BitVec.ofNat 8 (a.toNat + daaLow a ac + daaHigh a ac c)) (daaCarry a ac c) := rfl

theorem daaOut_value_toNat :
    (daaOut a ac c).value.toNat = (a.toNat + daaLow a ac + daaHigh a ac c) % 256 := by
  rw [daaOut_eq]
  exact BitVec.toNat_ofNat _ 8

/-- R214: DAA writes C alone. -/
theorem daaOut_apply (f : Status) : (daaOut a ac c).flags.apply f = { f with c := daaCarry a ac c } := by
  rw [daaOut_eq]
  rfl

end

/-! ## Delivery -/

section
variable (s : State)

/-- A flagged result written anywhere but to STATUS, without a read, as the claims say it. -/
theorem writeOnly_flagged (o : AluOut) (m : DAddr) (h : Memory.wf 128 s.ram = true) (ht : target s m ≠ .reg .status) :
    FlagStoreOutcome s m o.value (o.flags.apply s.status) (writeOnly o m s) := by
  refine ⟨memWrite s m o.value, memWrite_stored _ _ _ h, ?_⟩
  unfold writeOnly
  rw [resultToMem_of_ne _ _ _ ht, memWrite_status_of_ne _ _ _ ht]
  rfl

variable {s} {m : DAddr} {v : Byte} {f : Status} {t : State}

/-- What a flagged store to RAM leaves at the effective address. -/
theorem FlagStoreOutcome.read_of_ram (h : FlagStoreOutcome s m v f t) (ht : target s m = .ram) :
    Memory.read t.ram (effAddr s m).toNat = v := by
  obtain ⟨u, hstored, rfl⟩ := h
  simp only [Stored, ht] at hstored
  exact hstored.1

theorem FlagStoreOutcome.status (h : FlagStoreOutcome s m v f t) : t.status = f := by
  obtain ⟨u, -, rfl⟩ := h
  rfl

end
end Sys2Proof.Machine
end

section
/-! SUPPORT. The arithmetic and immediate instructions (40_arithmetic.md section 2), and that DAA after an addition of packed
BCD bytes gives their decimal sum. -/

namespace Sys2Proof.Machine

/-- Settles O17: the adder's results, delivered to ACC. -/
theorem arithmeticToAcc : Obligations.ArithmeticToAcc := fun s m =>
  ⟨⟨_, _, _, add8_sumSpec _ _ _ _, rfl, readToAcc_outcome s (fun v => add8 s.acc v false) m⟩,
    ⟨_, _, _, add8_sumSpec _ _ _ _, rfl, readToAcc_outcome s (fun v => add8 s.acc v s.status.c) m⟩,
    ⟨_, _, _, sub8_diffSpec _ _ true _, rfl, readToAcc_outcome s (fun v => sub8 s.acc v true) m⟩,
    ⟨_, _, _, sub8_diffSpec _ _ _ _, rfl, readToAcc_outcome s (fun v => sub8 s.acc v s.status.c) m⟩⟩

/-- Settles O18: the same results, delivered by a read-modify-write. -/
theorem arithmeticToMemory : Obligations.ArithmeticToMemory := fun s m hwf hm =>
  ⟨⟨_, _, _, add8_sumSpec _ _ _ _, rfl, readModifyWrite_flagged s (fun v => add8 s.acc v false) m hwf hm⟩,
    ⟨_, _, _, add8_sumSpec _ _ _ _, rfl, readModifyWrite_flagged s (fun v => add8 s.acc v s.status.c) m hwf hm⟩,
    ⟨_, _, _, sub8_diffSpec _ _ true _, rfl, readModifyWrite_flagged s (fun v => sub8 s.acc v true) m hwf hm⟩,
    ⟨_, _, _, sub8_diffSpec _ _ _ _, rfl, readModifyWrite_flagged s (fun v => sub8 s.acc v s.status.c) m hwf hm⟩⟩

/-- Settles O19: the adder's and the bitwise results of an immediate byte, delivered to ACC. -/
theorem immediateOperations : Obligations.ImmediateOperations := fun s x =>
  ⟨⟨_, _, add8_sumSpec s.acc x false s.status, rfl⟩,
    ⟨_, _, sub8_diffSpec s.acc x true s.status, rfl⟩,
    ⟨_, _, zeroFlagged_logicSpec (fun _ _ => BitVec.getLsbD_and) s.status, rfl⟩,
    ⟨_, _, zeroFlagged_logicSpec (fun _ _ => BitVec.getLsbD_or) s.status, rfl⟩,
    ⟨_, _, zeroFlagged_logicSpec (fun _ _ => BitVec.getLsbD_xor) s.status, rfl⟩,
    rfl⟩

section
variable {s : State} {m : DAddr}

theorem exec_daaM_eq : exec (.daaM m) s = .next (writeOnly (daaOut s.acc s.status.ac s.status.c) m s) := rfl

/-- DAA stores its result and writes its carry (R214). -/
theorem daaM_outcome (hwf : Memory.wf 128 s.ram = true) (hm : target s m ≠ .reg .status) :
    FlagStoreOutcome s m (daaOut s.acc s.status.ac s.status.c).value
      { s.status with c := daaCarry s.acc s.status.ac s.status.c }
      (writeOnly (daaOut s.acc s.status.ac s.status.c) m s) := by
  rw [← daaOut_apply]
  exact writeOnly_flagged s _ m hwf hm

end

/-- Settles O20: the two adjustments are `daaLow` and `daaHigh`. -/
theorem decimalAdjust : Obligations.DecimalAdjust := by
  intro s m hwf hm
  refine ⟨daaLow s.acc s.status.ac, daaHigh s.acc s.status.ac s.status.c, _, _, _, ?low, ?noLow, ?high, ?noHigh,
    daaOut_value_toNat _ _ _, rfl, exec_daaM_eq, daaM_outcome hwf hm⟩
  case low => exact fun h => (daaLow_eq ..).trans (if_pos h)
  case noLow => exact fun h => (daaLow_eq ..).trans (if_neg h)
  case high =>
    intro h
    have hcarry := (daaCarry_iff ..).mpr h
    exact ⟨if_pos hcarry, hcarry⟩
  case noHigh =>
    intro h
    have hcarry := Bool.eq_false_iff.mpr (mt (daaCarry_iff ..).mp h)
    exact ⟨by simp [daaHigh, hcarry], hcarry⟩

/-! ## The decimal sum -/

section
variable {a x r : Byte} {f g : Status}

/-- The low adjustment is the decimal carry of the low digits. -/
theorem daaLow_of_bcdSum (ha : isBcd a) (hx : isBcd x) (h : SumSpec a x false r f g) :
    daaLow r g.ac = if 10 ≤ a.toNat % 16 + x.toNat % 16 then 0x06 else 0 := by
  obtain ⟨halow, -⟩ := ha
  obtain ⟨hxlow, -⟩ := hx
  have hvalue := h.value
  have hhalf := h.half
  simp only [Bool.toNat_false] at hvalue hhalf
  rw [daaLow_eq]
  exact if_congr (by rw [hhalf]; omega) rfl rfl

/-- C after DAA is the decimal carry of the sum. -/
theorem daaCarry_of_bcdSum (ha : isBcd a) (hx : isBcd x) (h : SumSpec a x false r f g) :
    daaCarry r g.ac g.c = true ↔ 100 ≤ bcdNumber a + bcdNumber x := by
  rw [daaCarry_iff, daaLow_of_bcdSum ha hx h, h.carry]
  obtain ⟨halow, hahigh⟩ := ha
  obtain ⟨hxlow, hxhigh⟩ := hx
  have hvalue := h.value
  simp only [Bool.toNat_false, bcdNumber] at hvalue ⊢
  split <;> omega

theorem daaHigh_of_bcdSum (ha : isBcd a) (hx : isBcd x) (h : SumSpec a x false r f g) :
    daaHigh r g.ac g.c = if 100 ≤ bcdNumber a + bcdNumber x then 0x60 else 0 :=
  if_congr (daaCarry_of_bcdSum ha hx h) rfl rfl

/-- The decimal reading of a byte of two digits. -/
theorem bcd_of_digits {v : Byte} {n l : Nat} (hn : n ≤ 9) (hl : l ≤ 9) (hv : v.toNat = 16 * n + l) :
    isBcd v ∧ bcdNumber v = 10 * n + l := by
  unfold isBcd bcdNumber
  omega

/-- The digits `n` and `l` and the hundred `k` of a decimal sum: each carry between decimal digits costs six in bytes. -/
theorem exists_digits_of_bcdSum (ha : isBcd a) (hx : isBcd x) : ∃ n l k, n ≤ 9 ∧ l ≤ 9 ∧
    bcdNumber a + bcdNumber x = 100 * k + (10 * n + l) ∧
    a.toNat + x.toNat + (if 10 ≤ a.toNat % 16 + x.toNat % 16 then 0x06 else 0)
      + (if 100 ≤ bcdNumber a + bcdNumber x then 0x60 else 0) = 256 * k + (16 * n + l) := by
  obtain ⟨halow, hahigh⟩ := ha
  obtain ⟨hxlow, hxhigh⟩ := hx
  split <;> split <;> unfold bcdNumber at *
  · exact ⟨a.toNat / 16 + x.toNat / 16 + 1 - 10, a.toNat % 16 + x.toNat % 16 - 10, 1, by omega⟩
  · exact ⟨a.toNat / 16 + x.toNat / 16 + 1, a.toNat % 16 + x.toNat % 16 - 10, 0, by omega⟩
  · exact ⟨a.toNat / 16 + x.toNat / 16 - 10, a.toNat % 16 + x.toNat % 16, 1, by omega⟩
  · exact ⟨a.toNat / 16 + x.toNat / 16, a.toNat % 16 + x.toNat % 16, 0, by omega⟩

/-- The adjusted byte is the decimal sum modulo 100. -/
theorem daaOut_of_bcdSum (ha : isBcd a) (hx : isBcd x) (h : SumSpec a x false r f g) :
    isBcd (daaOut r g.ac g.c).value ∧
      bcdNumber (daaOut r g.ac g.c).value = (bcdNumber a + bcdNumber x) % 100 := by
  obtain ⟨n, l, k, hn, hl, hdecimal, hbinary⟩ := exists_digits_of_bcdSum ha hx
  have hvalue : (daaOut r g.ac g.c).value.toNat = 16 * n + l := by
    rw [daaOut_value_toNat, daaLow_of_bcdSum ha hx h, daaHigh_of_bcdSum ha hx h, h.value, Bool.toNat_false,
      Nat.add_zero, Nat.add_assoc, Nat.mod_add_mod, ← Nat.add_assoc, hbinary]
    omega
  obtain ⟨hbcd, hnumber⟩ := bcd_of_digits hn hl hvalue
  exact ⟨hbcd, by omega⟩

end

/-- Settles O21: DAA sees the sum and its carries, which the addition leaves in ACC and STATUS. -/
theorem decimalAdjustGivesBcdSum : Obligations.DecimalAdjustGivesBcdSum := by
  intro s x m ha hx hm hwf
  have hsum := add8_sumSpec s.acc x false s.status
  have hdaa := daaM_outcome (s := immediateToAcc (add8 s.acc x false) s) (m := m) hwf
    (show target s m ≠ .reg .status by simp [hm])
  refine ⟨_, _, rfl, exec_daaM_eq, ?_⟩
  rw [hdaa.status]
  have hread : Memory.read _ (effAddr s m).toNat = _ := hdaa.read_of_ram hm
  rw [hread]
  obtain ⟨hbcd, hnumber⟩ := daaOut_of_bcdSum ha hx hsum
  exact ⟨hbcd, hnumber, daaCarry_of_bcdSum ha hx hsum⟩

end Sys2Proof.Machine
end

section
/-! SUPPORT. The logic instructions on `[m]` (41_logic.md): one lemma for each delivery, over the bitwise operation
that is delivered; the four operations bit by bit are what the instructions add to it. -/

namespace Sys2Proof.Machine

/-- The complement of a byte, bit by bit (R230). -/
theorem getLsbD_complement (v : Byte) {i : Nat} (hi : i < 8) : (~~~v).getLsbD i = !v.getLsbD i := by
  rw [BitVec.getLsbD_not, decide_eq_true hi, Bool.true_and]

section
variable {s : State} {m : DAddr} {i : Instr} {g : Byte → Byte} {op : Bool → Bool → Bool}

/-- An instruction that delivers a bitwise result to ACC with Z (R220). -/
theorem logic_readToAcc (hexec : exec i s = .next (readToAcc (fun v => zeroFlagged (g v)) m s))
    (hbits : ∀ v j, j < 8 → (g v).getLsbD j = op (s.acc.getLsbD j) (v.getLsbD j)) :
    ∃ r f t, LogicSpec op s.acc (memValue s m) r s.status f ∧ exec i s = .next t ∧ AccOutcome s m r f 1 t :=
  ⟨_, _, _, zeroFlagged_logicSpec (hbits (memValue s m)) s.status, hexec,
    readToAcc_outcome s (fun v => zeroFlagged (g v)) m⟩

/-- An instruction that delivers a bitwise result to `[m]` with Z (R220), anywhere but to STATUS (U6). -/
theorem logic_readModifyWrite (hwf : Memory.wf 128 s.ram = true) (hm : target s m ≠ .reg .status)
    (hexec : exec i s = .next (readModifyWrite (fun v => zeroFlagged (g v)) m s))
    (hbits : ∀ v j, j < 8 → (g v).getLsbD j = op (s.acc.getLsbD j) (v.getLsbD j)) :
    ∃ r f t, LogicSpec op s.acc (memValue s m) r s.status f
      ∧ exec i s = .next t ∧ FlagStoreOutcome (afterOperand s m) m r f t :=
  ⟨_, _, _, zeroFlagged_logicSpec (hbits (memValue s m)) s.status, hexec,
    readModifyWrite_flagged s (fun v => zeroFlagged (g v)) m hwf hm⟩

end

/-- Settles O22: the four bitwise results, delivered to ACC. -/
theorem logicToAcc : Obligations.LogicToAcc := by
  intro s m
  refine ⟨?and, ?or, ?xor, ?complement⟩
  case and => exact logic_readToAcc rfl fun _ _ _ => BitVec.getLsbD_and
  case or => exact logic_readToAcc rfl fun _ _ _ => BitVec.getLsbD_or
  case xor => exact logic_readToAcc rfl fun _ _ _ => BitVec.getLsbD_xor
  case complement => exact logic_readToAcc rfl fun v _ => getLsbD_complement v

/-- Settles O23: the same four results, delivered by a read-modify-write. -/
theorem logicToMemory : Obligations.LogicToMemory := by
  intro s m hwf hm
  refine ⟨?and, ?or, ?xor, ?complement⟩
  case and => exact logic_readModifyWrite hwf hm rfl fun _ _ _ => BitVec.getLsbD_and
  case or => exact logic_readModifyWrite hwf hm rfl fun _ _ _ => BitVec.getLsbD_or
  case xor => exact logic_readModifyWrite hwf hm rfl fun _ _ _ => BitVec.getLsbD_xor
  case complement => exact logic_readModifyWrite hwf hm rfl fun v _ => getLsbD_complement v

end Sys2Proof.Machine
end

section
/-! SUPPORT. Counting, rotating and exchanging nibbles (42_incdec_rotate.md, 46_misc.md R302): each result as the claims
say it, once for the delivery to ACC and the one in place. A rotation, plain or through C, moves seven bits and lets one bit
in at the end. -/

namespace Sys2Proof.Machine

section
variable (v : Byte)

/-! ## Counting -/

/-- A count with Z, as the claims say it (R240). -/
theorem zeroFlagged_countSpec {n : Nat} {r : Byte} (hvalue : r.toNat = n % 256) (f : Status) :
    CountSpec n (zeroFlagged r).value f ((zeroFlagged r).flags.apply f) where
  value := hvalue
  zero := by
    rw [← hvalue]
    simp [zeroFlagged, FlagUpdate.apply, BitVec.toNat_eq]
  rest := rfl

/-- INCA and INC (R241, R242). -/
theorem increment_countSpec (f : Status) :
    CountSpec (v.toNat + 1) (zeroFlagged (v + 1)).value f ((zeroFlagged (v + 1)).flags.apply f) :=
  zeroFlagged_countSpec (BitVec.toNat_add v 1) f

/-- DECA and DEC (R243, R244): minus one is plus 255 modulo 256. -/
theorem decrement_countSpec (f : Status) :
    CountSpec (v.toNat + 255) (zeroFlagged (v - 1)).value f ((zeroFlagged (v - 1)).flags.apply f) := by
  have hvalue : (v - 1).toNat = (v.toNat + 255) % 256 := by
    rw [Nat.add_comm]
    exact BitVec.toNat_sub v 1
  exact zeroFlagged_countSpec hvalue f

/-! ## Rotating -/

/-- The upper seven bits moved right under a bit `b` (R245, R247). -/
theorem append_rotatedRight (b : BitVec 1) : RotatedRight v (b.getLsbD 0) (b ++ v.extractLsb' 1 7) := by
  refine ⟨?top, fun i hi => ?moved⟩ <;> rw [BitVec.getLsbD_append]
  case top => rfl
  case moved => rw [if_pos hi, BitVec.getLsbD_extractLsb', decide_eq_true hi, Bool.true_and, Nat.add_comm]

/-- The lower seven bits moved left above a bit `b` (R249, R251). -/
theorem append_rotatedLeft (b : BitVec 1) : RotatedLeft v (b.getLsbD 0) (v.extractLsb' 0 7 ++ b) := by
  refine ⟨?bottom, fun i hi => ?moved⟩ <;> rw [BitVec.getLsbD_append]
  case bottom => rfl
  case moved =>
    rw [if_neg (by omega), Nat.add_sub_cancel, BitVec.getLsbD_extractLsb', decide_eq_true hi, Bool.true_and,
      Nat.zero_add]

theorem rotateRight_rotatedRight : RotatedRight v (v.getLsbD 0) (rotateRight v) := by
  have h := append_rotatedRight v (v.extractLsb' 0 1)
  rwa [BitVec.getLsbD_extractLsb'] at h

theorem rotateLeft_rotatedLeft : RotatedLeft v (v.getLsbD 7) (rotateLeft v) := by
  have h := append_rotatedLeft v (v.extractLsb' 7 1)
  rwa [BitVec.getLsbD_extractLsb'] at h

theorem rotateRightCarry_rotatedRight (c : Bool) : RotatedRight v c (rotateRightCarry v c).value := by
  have h := append_rotatedRight v (BitVec.ofBool c)
  rwa [BitVec.getLsbD_ofBool] at h

theorem rotateLeftCarry_rotatedLeft (c : Bool) : RotatedLeft v c (rotateLeftCarry v c).value := by
  have h := append_rotatedLeft v (BitVec.ofBool c)
  rwa [BitVec.getLsbD_ofBool] at h

/-! ## Exchanging nibbles -/

/-- The low nibble moves up by a factor 16, the high one down (R301, R302). -/
theorem swapNibbles_swapped : Swapped v (swapNibbles v) := by
  have hv : v.toNat < 256 := v.isLt
  have hlow : (v.extractLsb' 0 4).toNat = v.toNat % 16 := by
    rw [BitVec.extractLsb'_toNat, Nat.shiftRight_zero]
  have hhigh : (v.extractLsb' 4 4).toNat = v.toNat / 16 := by
    rw [BitVec.extractLsb'_toNat, Nat.shiftRight_eq_div_pow]
    omega
  unfold Swapped swapNibbles
  rw [BitVec.toNat_append, ← Nat.shiftLeft_add_eq_or_of_lt (BitVec.isLt _), Nat.shiftLeft_eq, hlow, hhigh]

end

/-! ## The instructions -/

/-- Settles O24: the results, delivered to ACC with the flags each writes. -/
theorem movesAndCountsToAcc : Obligations.MovesAndCountsToAcc := by
  intro s m
  refine ⟨?mov, ?swap, ?increment, ?decrement⟩
  case mov => exact ⟨_, rfl, readToAcc_outcome s unflagged m⟩
  case swap => exact ⟨_, _, swapNibbles_swapped _, rfl, readToAcc_outcome s (fun v => unflagged (swapNibbles v)) m⟩
  case increment =>
    exact ⟨_, _, _, increment_countSpec _ _, rfl, readToAcc_outcome s (fun v => zeroFlagged (v + 1)) m⟩
  case decrement =>
    exact ⟨_, _, _, decrement_countSpec _ _, rfl, readToAcc_outcome s (fun v => zeroFlagged (v - 1)) m⟩

/-- Settles O25: the rotations, delivered to ACC; those through C write the bit that leaves the byte. -/
theorem rotatesToAcc : Obligations.RotatesToAcc := by
  intro s m
  refine ⟨?right, ?left, ?rightCarry, ?leftCarry⟩
  case right =>
    exact ⟨_, _, rotateRight_rotatedRight _, rfl, readToAcc_outcome s (fun v => unflagged (rotateRight v)) m⟩
  case left =>
    exact ⟨_, _, rotateLeft_rotatedLeft _, rfl, readToAcc_outcome s (fun v => unflagged (rotateLeft v)) m⟩
  case rightCarry =>
    exact ⟨_, _, rotateRightCarry_rotatedRight _ _, rfl,
      readToAcc_outcome s (fun v => rotateRightCarry v s.status.c) m⟩
  case leftCarry =>
    exact ⟨_, _, rotateLeftCarry_rotatedLeft _ _, rfl,
      readToAcc_outcome s (fun v => rotateLeftCarry v s.status.c) m⟩

/-- Settles O26: the same results, delivered by a read-modify-write; STATUS is excluded where flags are written (U6). -/
theorem countsAndRotatesToMemory : Obligations.CountsAndRotatesToMemory := by
  intro s m hwf
  refine ⟨?right, ?left, fun hm => ⟨?rightCarry, ?leftCarry, ?increment, ?decrement⟩⟩
  case right => exact ⟨_, _, rotateRight_rotatedRight _, rfl, readModifyWrite_unflagged s rotateRight m hwf⟩
  case left => exact ⟨_, _, rotateLeft_rotatedLeft _, rfl, readModifyWrite_unflagged s rotateLeft m hwf⟩
  case rightCarry =>
    exact ⟨_, _, rotateRightCarry_rotatedRight _ _, rfl,
      readModifyWrite_flagged s (fun v => rotateRightCarry v s.status.c) m hwf hm⟩
  case leftCarry =>
    exact ⟨_, _, rotateLeftCarry_rotatedLeft _ _, rfl,
      readModifyWrite_flagged s (fun v => rotateLeftCarry v s.status.c) m hwf hm⟩
  case increment =>
    exact ⟨_, _, _, increment_countSpec _ _, rfl, readModifyWrite_flagged s (fun v => zeroFlagged (v + 1)) m hwf hm⟩
  case decrement =>
    exact ⟨_, _, _, decrement_countSpec _ _, rfl, readModifyWrite_flagged s (fun v => zeroFlagged (v - 1)) m hwf hm⟩

end Sys2Proof.Machine
end

section
/-! SUPPORT. The instructions that store a byte and write no flag (43_move_bit.md R262, R264, R265; 46_misc.md R296, R297,
R301): one lemma for the stores that do not read, and the change of one bit as the claims say it. -/

namespace Sys2Proof.Machine

/-! ## Stores without a read -/

/-- An unflagged result written without a read, STATUS included, as the claims say it (R130). -/
theorem writeOnly_unflagged (s : State) (v : Byte) (m : DAddr) (h : Memory.wf 128 s.ram = true) :
    StoreOutcome s m v (writeOnly (unflagged v) m s) := by
  refine ⟨memWrite s m v, memWrite_stored _ _ _ h, ?_⟩
  unfold writeOnly
  rw [resultToMem_unflagged, State.charge_eq]

/-- Settles O28: each of the three is a store without a read, of ACC or of a constant. -/
theorem storesWithoutReading : Obligations.StoresWithoutReading := by
  intro s m hwf
  refine ⟨?mov, ?clear, ?set⟩
  case mov => exact ⟨_, rfl, writeOnly_unflagged s s.acc m hwf⟩
  case clear => exact ⟨_, rfl, writeOnly_unflagged s 0x00#8 m hwf⟩
  case set => exact ⟨_, rfl, writeOnly_unflagged s 0xFF#8 m hwf⟩

/-! ## One bit of a byte -/

theorem putBit_withBit (v : Byte) (i : BitNo) (b : Bool) : WithBit v i b (putBit v i b) := by
  refine ⟨getBit_putBit_same v i b, fun j hj hne => ?_⟩
  rw [getLsbD_eq_getBit _ hj, getLsbD_eq_getBit _ hj]
  exact getBit_putBit_of_ne v (ofNat_ne_of_ne_toNat i hj hne) b

/-- The change of one bit of `[m]` in place: the whole byte is read and written (R264, R265). -/
theorem putBit_readModifyWrite (s : State) (m : DAddr) (i : BitNo) (b : Bool) {instr : Instr}
    (hwf : Memory.wf 128 s.ram = true)
    (hexec : exec instr s = .next (readModifyWrite (fun v => unflagged (putBit v i b)) m s)) :
    ∃ r t, WithBit (memValue s m) i b r ∧ exec instr s = .next t ∧ StoreOutcome (afterOperand s m) m r t :=
  ⟨_, _, putBit_withBit _ i b, hexec, readModifyWrite_unflagged s (fun v => putBit v i b) m hwf⟩

/-- Settles O29: the exchanged nibbles or the one changed bit, delivered by a read-modify-write, STATUS included. -/
theorem swapAndBitWrites : Obligations.SwapAndBitWrites := by
  intro s m i hwf
  refine ⟨?swap, ?set, ?clear⟩
  case swap => exact ⟨_, _, swapNibbles_swapped _, rfl, readModifyWrite_unflagged s swapNibbles m hwf⟩
  case set => exact putBit_readModifyWrite s m i true hwf rfl
  case clear => exact putBit_readModifyWrite s m i false hwf rfl

end Sys2Proof.Machine
end

section
/-! SUPPORT. PCL as the destination of a store: a jump in the page of PC, for one cycle more (10_state.md R33;
44_branch.md R284; D8), for a store without a read and for a read-modify-write. -/

namespace Sys2Proof.Machine

section
variable {s : State} {m : DAddr}

/-- A result stored in PCL is a jump in the page of PC, with the flags the operation writes. -/
theorem resultToMem_pcl (h : target s m = .reg .pcl) (o : AluOut) :
    resultToMem s m o = ((s.withPc (s.pc.extractLsb' 8 3 ++ o.value)).withStatus (o.flags.apply s.status)).withCycles
      (s.cycles + 1) := by
  rw [resultToMem_of_ne s m o (by simp [h]), memWrite_of_reg s h]
  rfl

theorem writeOnly_pcl (h : target s m = .reg .pcl) (o : AluOut) :
    writeOnly o m s = ((s.withPc (s.pc.extractLsb' 8 3 ++ o.value)).withStatus (o.flags.apply s.status)).withCycles
      (s.cycles + 2) := by
  rw [writeOnly, resultToMem_pcl h]
  rfl

/-- An operation on PCL in place computes with the low byte of PC. -/
theorem readModifyWrite_pcl (h : target s m = .reg .pcl) (f : Byte → AluOut) :
    readModifyWrite f m s = ((s.withPc (s.pc.extractLsb' 8 3 ++ (f (s.pc.extractLsb' 0 8)).value)).withStatus
      ((f (s.pc.extractLsb' 0 8)).flags.apply s.status)).withCycles (s.cycles + 2) := by
  rw [readModifyWrite, afterRead_of_ne s m (by simp [h]), memValue_of_reg s h, resultToMem_pcl h]
  rfl

/-- The page of an address is its quotient by 256. -/
theorem toNat_page_append (pc : PAddr) (low : Byte) :
    (pc.extractLsb' 8 3 ++ low).toNat = pc.toNat / 256 * 256 + low.toNat := by
  have hpc : pc.toNat < 2048 := pc.isLt
  have hpage : (pc.extractLsb' 8 3).toNat = pc.toNat / 256 := by
    rw [BitVec.extractLsb'_toNat, Nat.shiftRight_eq_div_pow]
    omega
  rw [BitVec.toNat_append, ← Nat.shiftLeft_add_eq_or_of_lt low.isLt, Nat.shiftLeft_eq, hpage]

end

/-- Settles O35: a store of ACC, and of ACC plus the low byte of PC, in PCL. -/
theorem computedJumps : Obligations.ComputedJumps := by
  intro s m hm
  refine ⟨?mov, ?addm⟩
  case mov =>
    exact ⟨_, congrArg Host.Outcome.next (writeOnly_pcl hm (unflagged s.acc)), toNat_page_append s.pc s.acc, rfl⟩
  case addm =>
    exact ⟨_, _, _, add8_sumSpec _ _ _ _,
      congrArg Host.Outcome.next (readModifyWrite_pcl hm fun v => add8 s.acc v false), toNat_page_append s.pc _, rfl⟩

end Sys2Proof.Machine
end

section
/-! SUPPORT. The instructions that skip (44_branch.md R270, R273 to R280): for each of their three forms, a test, a
load into ACC and a change in place, the whole next state with the skip and without it. -/

namespace Sys2Proof.Machine

theorem beq_zero_of_toNat_eq_zero {r : Byte} (h : r.toNat = 0) : (r == 0#8) = true :=
  beq_iff_eq.mpr (BitVec.eq_of_toNat_eq h)

theorem beq_zero_of_toNat_ne_zero {r : Byte} (h : r.toNat ≠ 0) : (r == 0#8) = false :=
  beq_false_of_ne fun hr => h (congrArg BitVec.toNat hr)

theorem State.skipIf_of_zero (s : State) {r : Byte} (h : r.toNat = 0) :
    s.skipIf (r == 0#8) = (s.withPc (s.pc + 1#11)).withCycles (s.cycles + 1) := by
  rw [beq_zero_of_toNat_eq_zero h]
  rfl

theorem State.skipIf_of_nonzero (s : State) {r : Byte} (h : r.toNat ≠ 0) : s.skipIf (r == 0#8) = s := by
  rw [beq_zero_of_toNat_ne_zero h]
  rfl

section
variable {s : State} {m : DAddr}

/-! ## Tests -/

theorem testAndSkip_of_true {test : Byte → Bool} (h : test (memValue s m) = true) :
    testAndSkip test m s = ((afterOperand s m).withPc (s.pc + 1#11)).withCycles (s.cycles + 2) := by
  rw [testAndSkip, h, afterRead_eq_afterOperand]
  rfl

theorem testAndSkip_of_false {test : Byte → Bool} (h : test (memValue s m) = false) :
    testAndSkip test m s = (afterOperand s m).withCycles (s.cycles + 1) := by
  rw [testAndSkip, h, afterRead_eq_afterOperand]
  rfl

/-! ## Loads -/

/-- A load that skips on zero: ACC gets `f [m]` in either case (C17). -/
theorem loadAndSkip_outcome (f : Byte → Byte) :
    ((f (memValue s m)).toNat = 0 → loadAndSkip f m s
      = (((afterOperand s m).withAcc (f (memValue s m))).withPc (s.pc + 1#11)).withCycles (s.cycles + 2))
    ∧ ((f (memValue s m)).toNat ≠ 0 → loadAndSkip f m s
      = ((afterOperand s m).withAcc (f (memValue s m))).withCycles (s.cycles + 1)) := by
  rw [loadAndSkip, readToAcc, afterRead_eq_afterOperand, resultToAcc_unflagged]
  exact ⟨State.skipIf_of_zero _, State.skipIf_of_nonzero _⟩

/-! ## Changes in place -/

/-- A change in place that skips on zero, anywhere but on PCL. -/
theorem modifyAndSkip_outcome (f : Byte → Byte) (hwf : Memory.wf 128 s.ram = true) (hm : target s m ≠ .reg .pcl) :
    ∃ u, Stored (afterOperand s m) m (f (memValue s m)) u
      ∧ ((f (memValue s m)).toNat = 0 → modifyAndSkip f m s = (u.withPc (u.pc + 1#11)).withCycles (u.cycles + 2))
      ∧ ((f (memValue s m)).toNat ≠ 0 → modifyAndSkip f m s = u.withCycles (u.cycles + 1)) := by
  obtain ⟨u, hstored, hwritten⟩ := readModifyWrite_unflagged s f m hwf
  rw [modifyAndSkip, skipOnZeroResult, if_neg hm, hwritten]
  exact ⟨u, hstored, State.skipIf_of_zero _, State.skipIf_of_nonzero _⟩

/-- A change of PCL in place: the jump, and for a zero result the free skip of U7 at its destination. -/
theorem modifyAndSkip_pcl (f : Byte → Byte) (hm : target s m = .reg .pcl) :
    modifyAndSkip f m s = ((s.withPc (s.pc.extractLsb' 8 3 ++ f (memValue s m))).withCycles (s.cycles + 2)).skipIf
      (f (memValue s m) == 0#8 && Config.freeSkip s.draws) := by
  rw [modifyAndSkip, skipOnZeroResult, if_pos hm, readModifyWrite_pcl hm, memValue_of_reg s hm]
  rfl

/-- The two outcomes of a change of PCL in place (U7). -/
theorem modifyAndSkip_pcl_outcome (f : Byte → Byte) (hm : target s m = .reg .pcl) :
    ((f (memValue s m)).toNat ≠ 0 → modifyAndSkip f m s
      = (s.withPc (s.pc.extractLsb' 8 3 ++ f (memValue s m))).withCycles (s.cycles + 2))
    ∧ ((f (memValue s m)).toNat = 0 →
      modifyAndSkip f m s = (s.withPc (s.pc.extractLsb' 8 3 ++ f (memValue s m))).withCycles (s.cycles + 2)
      ∨ modifyAndSkip f m s
        = (s.withPc (s.pc.extractLsb' 8 3 ++ f (memValue s m) + 1#11)).withCycles (s.cycles + 3)) := by
  rw [modifyAndSkip_pcl f hm]
  refine ⟨fun hne => ?jump, fun hzero => ?jumpOrSkip⟩
  case jump =>
    rw [beq_zero_of_toNat_ne_zero hne]
    rfl
  case jumpOrSkip =>
    rw [beq_zero_of_toNat_eq_zero hzero]
    cases Config.freeSkip s.draws with
    | false => exact .inl rfl
    | true => exact .inr rfl

end

/-! ## The instructions -/

/-- Settles O30: each of the three is `testAndSkip`, with the claimed condition as its test. -/
theorem skipTests : Obligations.SkipTests := by
  intro s m i
  refine ⟨fun hzero => ?zero, fun hne => ?nonzero, fun hbit => ⟨?szClear, ?snzClear⟩, fun hbit => ⟨?szSet, ?snzSet⟩⟩
    <;> refine congrArg Host.Outcome.next ?_
  case zero => exact testAndSkip_of_true (beq_zero_of_toNat_eq_zero hzero)
  case nonzero => exact testAndSkip_of_false (beq_zero_of_toNat_ne_zero hne)
  case szClear => exact testAndSkip_of_true (congrArg not hbit)
  case snzClear => exact testAndSkip_of_false hbit
  case szSet => exact testAndSkip_of_false (congrArg not hbit)
  case snzSet => exact testAndSkip_of_true hbit

/-- Settles O31: each of the three is `loadAndSkip`, of a byte plus 0, plus 1, and minus 1, which is plus 255. -/
theorem skipLoads : Obligations.SkipLoads := by
  intro s m i n hi
  obtain ⟨f, hexec, hvalue⟩ : ∃ f : Byte → Byte, exec i s = .next (loadAndSkip f m s)
      ∧ (f (memValue s m)).toNat = ((memValue s m).toNat + n) % 256 := by
    simp only [List.mem_cons, Prod.mk.injEq, List.not_mem_nil, or_false] at hi
    rcases hi with ⟨rfl, rfl⟩ | ⟨rfl, rfl⟩ | ⟨rfl, rfl⟩
    · exact ⟨id, rfl, (Nat.mod_eq_of_lt (memValue s m).isLt).symm⟩
    · exact ⟨(· + 1), rfl, (increment_countSpec _ s.status).value⟩
    · exact ⟨(· - 1), rfl, (decrement_countSpec _ s.status).value⟩
  simp only [hexec, Host.Outcome.next.injEq]
  exact ⟨f (memValue s m), hvalue, loadAndSkip_outcome f⟩

/-- Settles O32: both are `modifyAndSkip`, whose outcome on PCL is that of U7. -/
theorem skipModifies : Obligations.SkipModifies := by
  intro s m i n hwf hi
  obtain ⟨f, hexec, hvalue⟩ : ∃ f : Byte → Byte, exec i s = .next (modifyAndSkip f m s)
      ∧ (f (memValue s m)).toNat = ((memValue s m).toNat + n) % 256 := by
    simp only [List.mem_cons, Prod.mk.injEq, List.not_mem_nil, or_false] at hi
    rcases hi with ⟨rfl, rfl⟩ | ⟨rfl, rfl⟩
    · exact ⟨(· + 1), rfl, (increment_countSpec _ s.status).value⟩
    · exact ⟨(· - 1), rfl, (decrement_countSpec _ s.status).value⟩
  simp only [hexec, Host.Outcome.next.injEq]
  exact ⟨f (memValue s m), hvalue, modifyAndSkip_outcome f hwf, modifyAndSkip_pcl_outcome f⟩

end Sys2Proof.Machine
end

section
/-! SUPPORT. Jumps, calls, returns and HALT (10_state.md R37 to R39; 44_branch.md R272, R281 to R283, R285; 46_misc.md
R295, R303): what a pop takes off the stack, and that a return takes off what an interrupt entry or a CALL put on. -/

namespace Sys2Proof.Machine

section
variable {s : State} {x : Byte} {p : PAddr} {rest : List PAddr}

/-! ## The stack -/

/-- `Pop` with an entry on the stack: the newest one (R39). -/
theorem popPc_of_concat (h : s.stack = rest ++ [p]) : s.popPc = (s.withPc p).withStack rest := by
  rw [State.popPc_eq, h, List.getLastD_concat, List.dropLast_concat]

/-- `Pop` with an empty stack: PC is a free value (U5). -/
theorem popPc_of_nil (h : s.stack = []) : s.popPc = (s.withPc (Config.freePc s.draws)).withStack [] := by
  rw [State.popPc_eq, h]
  rfl

theorem popPc_charge (n : Nat) : (s.charge n).popPc = s.popPc.charge n := rfl
theorem popPc_withIntc (i : Interrupts) : (s.withIntc i).popPc = s.popPc.withIntc i := rfl

/-- What is pushed with room on the stack is popped, wherever PC has gone (R38, R39). -/
theorem popPc_push (h : s.stack.length < 4) (v addr : PAddr) : ((s.push v).withPc addr).popPc = s.withPc v := by
  rw [State.push_room s v h]
  exact popPc_of_concat rfl

/-! ## CALL -/

theorem exec_callAddr_eq (addr : PAddr) :
    exec (.callAddr addr) s = .next (((s.push s.pc).withPc addr).charge 2) := rfl

theorem exec_callAddr_of_room (h : s.stack.length < 4) (addr : PAddr) :
    exec (.callAddr addr) s = .next (((s.withStack (s.stack ++ [s.pc])).withPc addr).withCycles (s.cycles + 2)) := by
  rw [exec_callAddr_eq, State.push_room s s.pc h]
  rfl

/-- A call with four entries loses the oldest (R38, U4). -/
theorem exec_callAddr_of_full (h : s.stack.length = 4) (addr : PAddr) :
    exec (.callAddr addr) s
      = .next (((s.withStack (s.stack.tail ++ [s.pc])).withPc addr).withCycles (s.cycles + 2)) := by
  rw [exec_callAddr_eq, State.push_full s s.pc h]
  rfl

/-! ## The returns -/

theorem exec_ret_eq : exec .ret s = .next (s.popPc.charge 2) := rfl
theorem exec_retAX_eq : exec (.retAX x) s = .next ((s.popPc.withAcc x).charge 2) := rfl
theorem exec_reti_eq : exec .reti s = .next ((returnFromInterrupt s).charge 2) := rfl

/-- A return right after an interrupt entry gives back PC and the stack, and sets EMI (R329). -/
theorem returnFromInterrupt_enterInterrupt (h : s.stack.length < 4) (k : IrqSource) :
    returnFromInterrupt (enterInterrupt k s) = (s.withIntc { s.intc.setFlag false k with emi := true }).withCycles
      (s.cycles + s.cfg.entryCycles) := by
  have hpop : (enterInterrupt k s).popPc
      = (s.withIntc { s.intc.setFlag false k with emi := false }).withCycles (s.cycles + s.cfg.entryCycles) := by
    rw [enterInterrupt, popPc_charge, popPc_withIntc, popPc_push h]
    rfl
  rw [returnFromInterrupt, hpop]
  rfl

end

/-! ## The instructions -/

/-- Settles O34: the three returns pop alike, from a stack with an entry and from an empty one (U5). -/
theorem returns : Obligations.Returns := by
  intro s x p rest hstack
  have hpop : s.popPc = (s.withPc p).withStack rest := by
    rcases hstack with hconcat | ⟨hnil, rfl, rfl⟩
    · exact popPc_of_concat hconcat
    · exact popPc_of_nil hnil
  rw [exec_ret_eq, exec_retAX_eq, exec_reti_eq, returnFromInterrupt, hpop]
  exact ⟨rfl, rfl, rfl⟩

/-- Settles O10: what the entry and CALL append to the stack is what RETI and RET pop. -/
theorem returnsUndoEntryAndCall : Obligations.ReturnsUndoEntryAndCall := by
  refine ⟨fun s k hroom => ?reti, fun s addr hroom => ⟨_, exec_callAddr_eq addr, rfl, ?ret⟩⟩
  case reti =>
    rw [exec_reti_eq, returnFromInterrupt_enterInterrupt hroom, State.charge_eq]
    rfl
  case ret =>
    rw [exec_ret_eq, popPc_charge, popPc_push hroom]
    rfl

/-- Settles O33: JMP, NOP and HALT are what they are defined to be; CALL by the room on the stack (U4). -/
theorem jumpCallNopAndHalt : Obligations.JumpCallNopAndHalt := by
  intro s addr
  refine ⟨rfl, rfl, rfl, fun hroom => exec_callAddr_of_room hroom addr, fun a b c d hfull => ?callFull⟩
  case callFull =>
    rw [exec_callAddr_of_full (by simp [hfull]), hfull]
    rfl

end Sys2Proof.Machine
end

section
/-! SUPPORT. The table reads (45_table.md R290 to R293): a program word as its two parts, the address of the table word, and
what a read from any address leaves. -/

namespace Sys2Proof.Machine

section
variable {s : State} {m : DAddr}

/-- A program word is its high seven bits, which go to TBLH, and its low byte, which goes to `[m]` (R291). -/
theorem toNat_high_low (w : PWord) : w.toNat = (w.extractLsb' 8 7).toNat * 256 + (w.extractLsb' 0 8).toNat := by
  have hw : w.toNat < 32768 := w.isLt
  rw [toNat_field, toNat_field]
  omega

/-- The last page is the page of its first address, 700H. -/
theorem toNat_lastPage_append (low : Byte) : (0b111#3 ++ low).toNat = 7 * 256 + low.toNat :=
  toNat_page_append 0x700#11 low

/-- A table read stores the word's low byte, as the claims say it, and then its high part in TBLH. -/
theorem tableRead_outcome (a : PAddr) (hwf : Memory.wf 128 s.ram = true) :
    ∃ u, Stored s m ((pmRead s a).extractLsb' 0 8) u
      ∧ tableRead a m s = (u.withTblh ((pmRead s a).extractLsb' 8 7)).withCycles (u.cycles + 2) :=
  ⟨memWrite s m _, memWrite_stored s m _ hwf, State.charge_eq _ 2⟩

theorem exec_tabrdcM_eq : exec (.tabrdcM m) s = .next (tableRead (s.pc.extractLsb' 8 3 ++ s.tblp) m s) := rfl
theorem exec_tabrdlM_eq : exec (.tabrdlM m) s = .next (tableRead (0b111#3 ++ s.tblp) m s) := rfl

/-- Each of the two instructions is a table read from the address TBLP gives in its page (R292, R293; D8). -/
theorem exec_tableRead {i : Instr} {page : Nat}
    (hi : (i, page) ∈ [(Instr.tabrdcM m, s.pc.toNat / 256), (.tabrdlM m, 7)]) :
    ∃ a : PAddr, a.toNat = page * 256 + s.tblp.toNat ∧ exec i s = .next (tableRead a m s) := by
  simp only [List.mem_cons, List.not_mem_nil, or_false, Prod.mk.injEq] at hi
  obtain ⟨rfl, rfl⟩ | ⟨rfl, rfl⟩ := hi
  · exact ⟨_, toNat_page_append s.pc s.tblp, exec_tabrdcM_eq⟩
  · exact ⟨_, toNat_lastPage_append s.tblp, exec_tabrdlM_eq⟩

end

/-- Settles O36: the word at the instruction's table address, taken apart into what is stored and what goes to TBLH. -/
theorem tableReads : Obligations.TableReads := by
  intro s m i page hwf hi
  obtain ⟨a, haddr, hexec⟩ := exec_tableRead hi
  obtain ⟨u, hstored, hread⟩ := tableRead_outcome (m := m) a hwf
  exact ⟨a, _, _, u, haddr, toNat_high_low (pmRead s a), hstored, hexec.trans (congrArg Host.Outcome.next hread)⟩

end Sys2Proof.Machine
end

section
/-! SUPPORT. The watchdog's clear instructions with the watchdog enabled (46_misc.md R298 to R300): what one of the pair does
under each clear option, and that an instruction of the other option clears or does nothing (U10). -/

namespace Sys2Proof.Machine

section
variable {s : State} {which : WdtLast}

/-! ## Clears -/

/-- A clear and its cycle, in the named updates of the claims. -/
theorem clearWdt_charge (s : State) (n : Nat) :
    (clearWdt s).charge n = ((s.withWdt { s.wdt with count := 0, prescaler := 0 }).withStatus
      { s.status with timeOut := false, pdf := false }).withCycles (s.cycles + n) := rfl

/-- A clear of the method not selected is the full clear or nothing (U10). -/
theorem clearWdtOtherMethod_eq_or_eq (s : State) : clearWdtOtherMethod s = clearWdt s ∨ clearWdtOtherMethod s = s :=
  ite_eq_or_eq _ _ _

/-! ## The pair CLR WDT1, CLR WDT2 -/

/-- Under the one-instruction option the pair is of the other method (U10). -/
theorem clearWdtPair_of_oneClear (hen : s.cfg.opt.wdtEnabled = true) (hone : s.cfg.opt.twoClears = false) :
    clearWdtPair which s = clearWdtOtherMethod s := by
  simp [clearWdtPair, hen, hone]

/-- One of the pair after the other clears, and is remembered (R299, R300). -/
theorem clearWdtPair_of_last_ne (hen : s.cfg.opt.wdtEnabled = true) (htwo : s.cfg.opt.twoClears = true)
    (hlast : s.wdt.last ≠ which) :
    clearWdtPair which s = (s.withWdt { count := 0, prescaler := 0, last := which }).withStatus
      { s.status with timeOut := false, pdf := false } := by
  simp only [clearWdtPair, hen, htwo, hlast, Bool.not_true, Bool.false_eq_true, if_false, if_true]
  rfl

/-- The same one again does nothing: what it would remember is remembered already (R299, C8). -/
theorem clearWdtPair_of_last_eq (hen : s.cfg.opt.wdtEnabled = true) (htwo : s.cfg.opt.twoClears = true)
    (hlast : s.wdt.last = which) : clearWdtPair which s = s := by
  simp only [clearWdtPair, hen, htwo, hlast, Bool.not_true, Bool.false_eq_true, if_false, if_true]
  subst hlast
  rfl

/-! ## The instructions -/

theorem exec_clrWdt_eq : exec .clrWdt s = execClrWdt s := rfl

theorem exec_clrWdt_of_oneClear (hen : s.cfg.opt.wdtEnabled = true) (hone : s.cfg.opt.twoClears = false) :
    exec .clrWdt s = .next ((clearWdt s).charge 1) := by
  simp [exec_clrWdt_eq, execClrWdt, hen, hone]

theorem exec_clrWdt_of_twoClears (hen : s.cfg.opt.wdtEnabled = true) (htwo : s.cfg.opt.twoClears = true) :
    exec .clrWdt s = .next ((clearWdtOtherMethod s).charge 1) := by
  simp [exec_clrWdt_eq, execClrWdt, hen, htwo]

theorem exec_clrWdt1_eq : exec .clrWdt1 s = .next ((clearWdtPair .first s).charge 1) := rfl
theorem exec_clrWdt2_eq : exec .clrWdt2 s = .next ((clearWdtPair .second s).charge 1) := rfl

/-- Each instruction of the pair with what is remembered of it (R73). -/
theorem exec_wdtPair {p : Instr × WdtLast} (hp : p ∈ [(Instr.clrWdt1, WdtLast.first), (.clrWdt2, .second)]) :
    exec p.1 s = .next ((clearWdtPair p.2 s).charge 1) := by
  simp only [List.mem_cons, List.not_mem_nil, or_false] at hp
  obtain rfl | rfl := hp
  · exact exec_clrWdt1_eq
  · exact exec_clrWdt2_eq

/-- The pair under the one-instruction option, whichever was executed last. -/
theorem exec_wdtPair_of_oneClear (hen : s.cfg.opt.wdtEnabled = true) (hone : s.cfg.opt.twoClears = false) {i : Instr}
    (hi : i ∈ [Instr.clrWdt1, .clrWdt2]) : exec i s = .next ((clearWdtOtherMethod s).charge 1) := by
  simp only [List.mem_cons, List.not_mem_nil, or_false] at hi
  obtain rfl | rfl := hi
  · rw [exec_clrWdt1_eq, clearWdtPair_of_oneClear hen hone]
  · rw [exec_clrWdt2_eq, clearWdtPair_of_oneClear hen hone]

/-- The two outcomes of an instruction of the other option, as the claim states them (U10). -/
theorem exec_otherMethod_outcome {i : Instr} (hexec : exec i s = .next ((clearWdtOtherMethod s).charge 1)) :
    exec i s = .next (((s.withWdt { s.wdt with count := 0, prescaler := 0 }).withStatus
      { s.status with timeOut := false, pdf := false }).withCycles (s.cycles + 1))
    ∨ exec i s = .next (s.withCycles (s.cycles + 1)) := by
  obtain hclears | hkeeps := clearWdtOtherMethod_eq_or_eq s
  · exact .inl (by rw [hexec, hclears, clearWdt_charge])
  · exact .inr (by rw [hexec, hkeeps, State.charge_eq])

end

/-- Settles O37: an instruction of the selected option is determined, for the pair by which was executed last; one of the
other option has one of its two outcomes (U10). -/
theorem watchdogClears : Obligations.WatchdogClears := by
  intro s hen
  refine ⟨fun hone => ⟨?single, fun i hi => ?pairOther⟩,
    fun htwo => ⟨fun p hp => ⟨fun hother => ?pair, fun hsame => ?again⟩, ?singleOther⟩⟩
  case single => rw [exec_clrWdt_of_oneClear hen hone, clearWdt_charge]
  case pairOther => exact exec_otherMethod_outcome (exec_wdtPair_of_oneClear hen hone hi)
  case pair =>
    rw [exec_wdtPair hp, clearWdtPair_of_last_ne hen htwo hother]
    rfl
  case again => rw [exec_wdtPair hp, clearWdtPair_of_last_eq hen htwo hsame, State.charge_eq]
  case singleOther => exact exec_otherMethod_outcome (exec_clrWdt_of_twoClears hen htwo)

end Sys2Proof.Machine
end

section
/-! SUPPORT. The assigned encoding and its decoder are inverse to each other (R161 to R169, D3), format by format: which level
of the decoder reads a word, and a word as its operation and its operand. -/

namespace Sys2Proof

/-! ## The level that reads a word (R169) -/

section
variable {w : PWord}

theorem decode_of_lt (hw : w.toNat < 0x2000) : decode w = decodeLow w := by
  have hbit14 : ¬w.getLsbD 14 = true := by rw [bit14_iff]; omega
  have hformat : (w.extractLsb' 11 3).toNat < 4 := by rw [toNat_field]; omega
  unfold decode
  rw [if_neg hbit14]
  split
  case h_5 => rfl
  all_goals omega

theorem opField_eq_zero_iff : w.extractLsb' 7 7 = 0#7 ↔ w.toNat / 128 % 128 = 0 := by
  rw [BitVec.toNat_eq, toNat_field]
  rfl

/-- Format M (R166) has the operations that formats N and I leave. -/
theorem decode_of_formM (hw : w.toNat < 0x2000) (hlow : 0x80 ≤ w.toNat) (himm : w.toNat < 0x900 ∨ 0x1000 ≤ w.toNat) :
    decode w = decodeM w := by
  have hop : w.extractLsb' 7 7 ≠ 0#7 := by rw [ne_eq, opField_eq_zero_iff]; omega
  have hrow : (w.extractLsb' 8 6).toNat = w.toNat / 256 % 64 := toNat_field w 8 6
  rw [decode_of_lt hw, decodeLow, if_neg hop]
  split
  case h_8 => rfl
  all_goals omega

end

/-! ## A word as its operation and its operand -/

theorem toNat_append_eq {k n : Nat} (op : BitVec k) (x : BitVec n) : (op ++ x).toNat = op.toNat * 2 ^ n + x.toNat := by
  rw [BitVec.toNat_append, ← Nat.shiftLeft_add_eq_or_of_lt x.isLt, Nat.shiftLeft_eq]

/-- A word whose upper bits are the operation is the operation before the word's own operand field. -/
theorem append_of_div {k n : Nat} {op : BitVec k} {w : BitVec (k + n)} (h : w.toNat / 2 ^ n = op.toNat) :
    op ++ w.extractLsb' 0 n = w := by
  refine BitVec.eq_of_toNat_eq ?_
  rw [toNat_append_eq, ← h, BitVec.extractLsb'_toNat, Nat.shiftRight_zero, Nat.div_add_mod']

/-- The same with the two operand fields of a bit instruction (R168). -/
theorem append_fieldI_fieldM {op : BitVec 5} {w : PWord} (h : w.toNat / 1024 = op.toNat) :
    op ++ (fieldI w ++ fieldM w) = w := by
  rw [fieldI, fieldM, BitVec.extractLsb'_append_extractLsb'_eq_extractLsb' (by rfl)]
  exact append_of_div h

theorem bit10_eq_decide (w : PWord) : w.getLsbD 10 = decide (w.toNat / 1024 % 2 = 1) := by
  rw [BitVec.getLsbD, Nat.testBit_eq_decide_div_mod_eq]

/-! ## Decoding an encoded instruction

For each format: the instruction is read back if the decoder has a row for its operation. -/

section
variable {m : DAddr} {x : Byte} {addr : PAddr} {i : BitNo}

theorem decode_append_M {op : BitVec 8} {instr : DAddr → Instr}
    (hop : 0x01 ≤ op.toNat ∧ op.toNat < 0x40 ∧ (op.toNat < 0x12 ∨ 0x20 ≤ op.toNat))
    (hrow : ∀ w : PWord, w.extractLsb' 7 7 = op.extractLsb' 0 7 → decodeM w = .ok (instr (fieldM w))) :
    decode (op ++ m) = .ok (instr m) := by
  have hw : (op ++ m : PWord).toNat = op.toNat * 128 + m.toNat := toNat_append_eq op m
  have hm : fieldM (op ++ m) = m := BitVec.extractLsb'_append_eq_right
  obtain ⟨hlow, hhigh, himm⟩ := hop
  rw [decode_of_formM (by omega) (by omega) (by omega), hrow _ (BitVec.extractLsb'_append_eq_of_le (le_refl 7)), hm]

theorem decode_append_I {op : BitVec 7} {instr : Byte → Instr} (hop : 0x01 ≤ op.toNat ∧ op.toNat < 0x20)
    (hrow : ∀ w : PWord, w.extractLsb' 7 7 ≠ 0#7 → w.extractLsb' 8 6 = op.extractLsb' 0 6 →
      decodeLow w = .ok (instr (fieldX w))) :
    decode (op ++ x) = .ok (instr x) := by
  have hw : (op ++ x : PWord).toNat = op.toNat * 256 + x.toNat := toNat_append_eq op x
  have hx : fieldX (op ++ x) = x := BitVec.extractLsb'_append_eq_right
  have hne : (op ++ x : PWord).extractLsb' 7 7 ≠ 0#7 := by rw [ne_eq, opField_eq_zero_iff]; omega
  rw [decode_of_lt (by omega), hrow _ hne (BitVec.extractLsb'_append_eq_of_le (le_refl 8)), hx]

theorem decode_append_addr {op : BitVec 4} {instr : PAddr → Instr}
    (hrow : ∀ w : PWord, w.getLsbD 14 = op.getLsbD 3 → w.extractLsb' 11 3 = op.extractLsb' 0 3 →
      decode w = .ok (instr (fieldAddr w))) :
    decode (op ++ addr) = .ok (instr addr) := by
  have haddr : fieldAddr (op ++ addr) = addr := BitVec.extractLsb'_append_eq_right
  rw [hrow _ BitVec.getLsbD_append (BitVec.extractLsb'_append_eq_of_le (le_refl 11)), haddr]

theorem decode_append_bit {op : BitVec 5} {instr : DAddr → BitNo → Instr}
    (hrow : ∀ w : PWord, w.getLsbD 14 = op.getLsbD 4 → w.getLsbD 10 = op.getLsbD 0 →
      w.extractLsb' 11 3 = op.extractLsb' 1 3 → decode w = .ok (instr (fieldM w) (fieldI w))) :
    decode (op ++ (i ++ m)) = .ok (instr m i) := by
  have hm : fieldM (op ++ (i ++ m)) = m :=
    (BitVec.extractLsb'_append_eq_of_add_le (by decide)).trans BitVec.extractLsb'_append_eq_right
  have hi : fieldI (op ++ (i ++ m)) = i :=
    (BitVec.extractLsb'_append_eq_of_add_le (by decide)).trans BitVec.extractLsb'_append_eq_left
  rw [hrow _ BitVec.getLsbD_append BitVec.getLsbD_append (BitVec.extractLsb'_append_eq_of_le (by decide)), hm, hi]

end

/-- Settles O1, format by format: the decoder has a row for the operation of each of the 63. -/
theorem decodeEncodeRoundTrip : Obligations.DecodeEncodeRoundTrip := by
  intro i
  cases i with
  | nop | clrWdt1 | halt | ret | reti | clrWdt2 | clrWdt => rfl
  | retAX x | subAX x | addAX x | xorAX x | orAX x | andAX x | movAX x =>
    exact decode_append_I (by decide) fun w hop hrow => by rw [decodeLow, if_neg hop, hrow]; rfl
  | callAddr addr | jmpAddr addr =>
    exact decode_append_addr fun w hbit14 hrow => by rw [decode, hbit14, hrow]; rfl
  | setMi m i | clrMi m i | snzMi m i | szMi m i =>
    exact decode_append_bit fun w hbit14 hbit10 hrow => by rw [decode, hbit14, hrow, hbit10]; rfl
  | _ m => exact decode_append_M (by decide) fun w hrow => by rw [decodeM, hrow]; rfl

/-! ## Encoding a decoded word

In each row the word's upper bits are the operation, and its operand fields are the rest. -/

section
variable {w : PWord} {i : Instr}

theorem encode_of_decodeWhole (h : decodeWhole w = .ok i) : encode i = w := by
  unfold decodeWhole at h
  split at h <;> cases h <;> exact BitVec.eq_of_toNat_eq (Eq.symm ‹_›)

theorem encode_of_decodeM (hw : w.toNat < 0x4000) (h : decodeM w = .ok i) : encode i = w := by
  have hop : (w.extractLsb' 7 7).toNat = w.toNat / 128 := by rw [toNat_field]; omega
  unfold decodeM at h
  rw [hop] at h
  split at h <;> cases h <;> exact append_of_div ‹_›

theorem encode_of_decodeLow (hw : w.toNat < 0x2000) (h : decodeLow w = .ok i) : encode i = w := by
  have hrow : (w.extractLsb' 8 6).toNat = w.toNat / 256 := by rw [toNat_field]; omega
  unfold decodeLow at h
  rw [hrow] at h
  split at h
  · exact encode_of_decodeWhole h
  · split at h
    case h_8 => exact encode_of_decodeM (by omega) h
    all_goals cases h; exact append_of_div ‹_›

theorem encode_of_decode (h : decode w = .ok i) : encode i = w := by
  have hformat : (w.extractLsb' 11 3).toNat = w.toNat / 2048 % 8 := toNat_field w 11 3
  unfold decode at h
  rw [hformat, bit10_eq_decide] at h
  split at h
  case isTrue => cases h
  case isFalse hbit14 =>
    rw [bit14_iff] at hbit14
    split at h
    case h_1 | h_2 => cases h; exact append_of_div (by simp; omega)
    case h_3 | h_4 => split at h <;> cases h <;> exact append_fieldI_fieldM (by simp_all; omega)
    case h_5 => exact encode_of_decodeLow (by simp only [imp_false] at *; omega) h

end

/-- Settles O2 (`encode_of_decode`). -/
theorem encodeDecodeRoundTrip : Obligations.EncodeDecodeRoundTrip := fun _ _ => encode_of_decode

/-- Settles O4, word by word. -/
theorem sampleWordsDecode : Obligations.SampleWordsDecode := ⟨rfl, rfl, rfl, rfl, rfl, rfl, rfl, rfl, rfl, rfl⟩

end Sys2Proof
end

section
/-! SUPPORT. MOV to and from a register, the timers' data registers and the ports' latches (60_exceptions.md R342, R344, R345,
R352, R353, R382), and the step that a change of a running timer's mode refuses (R356, U11). -/

namespace Sys2Proof.Machine

section
variable {s : State} {m : DAddr} {r : Sfr}

theorem exec_movMA_eq : exec (.movMA m) s = .next (writeOnly (unflagged s.acc) m s) := rfl
theorem exec_movAM_eq : exec (.movAM m) s = .next (readToAcc unflagged m s) := rfl

/-- `MOV [m],A` at a register is a write of the register. -/
theorem writeOnly_unflagged_reg (h : target s m = .reg r) (v : Byte) :
    writeOnly (unflagged v) m s = (regWrite s v r).charge 1 := by
  rw [writeOnly, resultToMem_unflagged, memWrite_of_reg s h]

/-- `MOV A,[m]` at a register is a read of the register. -/
theorem readToAcc_unflagged_reg (h : target s m = .reg r) :
    readToAcc unflagged m s = ((regAfterRead s r).withAcc (regValue s r)).charge 1 := by
  rw [readToAcc, resultToAcc_unflagged, memValue_of_reg s h]
  simp [afterRead, h]

theorem exec_movMA_reg (h : target s m = .reg r) : exec (.movMA m) s = .next ((regWrite s s.acc r).charge 1) := by
  rw [exec_movMA_eq, writeOnly_unflagged_reg h]

theorem exec_movAM_reg (h : target s m = .reg r) :
    exec (.movAM m) s = .next (((regAfterRead s r).withAcc (regValue s r)).charge 1) := by
  rw [exec_movAM_eq, readToAcc_unflagged_reg h]

/-- A count of Timer 0 at FFH brings back the preload (R343). -/
theorem countTimer0_tmr0_of_overflow (h : s.tmr0.counter = 0xFF#8) :
    (countTimer0 s).tmr0 = { s.tmr0 with counter := s.tmr0.preload } := by
  simp [countTimer0, h]

/-- A count of Timer 1 at FFFFH brings back the preload (R343). -/
theorem countTimer1_tmr1_of_overflow (h : s.tmr1.counter = 0xFFFF#16) :
    (countTimer1 s).tmr1 = { s.tmr1 with counter := s.tmr1.preload } := by
  simp [countTimer1, h]

end

/-- Settles O15: a write and a read of TMR0, and the count at FFH. -/
theorem timer0DataRegister : Obligations.Timer0DataRegister := by
  refine ⟨fun s m h => ⟨exec_movMA_reg h, exec_movAM_reg h⟩, fun s h => ?overflow⟩
  case overflow =>
    rw [countTimer0_tmr0_of_overflow h]
    exact ⟨rfl, rfl⟩

/-- Settles O16: the writes and reads of TMR1L and TMR1H. -/
theorem timer1DataRegisters : Obligations.Timer1DataRegisters := fun _ _ =>
  ⟨fun h => ⟨exec_movMA_reg h, exec_movAM_reg h⟩, fun h => ⟨exec_movMA_reg h, exec_movAM_reg h⟩⟩

/-! ## A change of the mode of a running timer -/

section
variable {s : State} {m : DAddr} {r : Sfr}

/-- A step that stores ACC in a register ends as the store's clash of modes says. -/
theorem step_of_movMA_reg (hmode : s.mode = .running) (hirq : acceptable s = none)
    (hdecode : decodeWith s.cfg.enc (fetchWord s) = .ok (.movMA m)) (h : target s m = .reg r) :
    step s = finishInstruction s ((regWrite (afterFetch s) s.acc r).charge 1) :=
  step_of_exec s hmode hirq hdecode (exec_movMA_reg (s := afterFetch s) h)

theorem finishInstruction_of_clash {t : State} (h : timerModeClash s t = true) :
    finishInstruction s t = .refused .timerModeChangedWhileOn := by
  simp [finishInstruction, h]

theorem timerModeClash_of_tmr0 {t : State} (hon : s.tmr0.on = true) (hne : t.tmr0.mode ≠ s.tmr0.mode) :
    timerModeClash s t = true := by
  simp [timerModeClash, hon, hne]

theorem timerModeClash_of_tmr1 {t : State} (hon : s.tmr1.on = true) (hne : t.tmr1.mode ≠ s.tmr1.mode) :
    timerModeClash s t = true := by
  simp [timerModeClash, hon, hne]

end

/-- Settles O6: the store puts bits 7 and 6 of ACC in the mode field. -/
theorem timerModeChangeRefused : Obligations.TimerModeChangeRefused := by
  intro s m hmode hirq hdecode
  refine ⟨fun htarget hon hne => ?timer0, fun htarget hon hne => ?timer1⟩
  case timer0 =>
    rw [step_of_movMA_reg hmode hirq hdecode htarget]
    exact finishInstruction_of_clash (timerModeClash_of_tmr0 hon hne)
  case timer1 =>
    rw [step_of_movMA_reg hmode hirq hdecode htarget]
    exact finishInstruction_of_clash (timerModeClash_of_tmr1 hon hne)

end Sys2Proof.Machine
end

section
/-! SUPPORT. The disabled watchdog (R360, D25), that every instruction completes in one to three cycles (R310, R440), and that
only HALT halts (R390). -/

namespace Sys2Proof.Machine

/-! ## The watchdog disabled -/

section
variable {s : State}

theorem clockWdt_of_disabled (h : s.cfg.opt.wdtEnabled = false) : clockWdt s = s := by simp [clockWdt, h]

theorem clearWdtPair_of_disabled (h : s.cfg.opt.wdtEnabled = false) (which : WdtLast) : clearWdtPair which s = s := by
  simp [clearWdtPair, h]

end

/-- Settles O38: the clock and the three clear instructions each look at the option first. -/
theorem watchdogDisabled : Obligations.WatchdogDisabled := by
  intro s h
  refine ⟨clockWdt_of_disabled h, ?_⟩
  simp only [List.forall_mem_cons]
  refine ⟨?single, ?first, ?second, nofun⟩
  case single => simp [exec_clrWdt_eq, execClrWdt, h]
  case first => rw [exec_clrWdt1_eq, clearWdtPair_of_disabled h, State.charge_eq]
  case second => rw [exec_clrWdt2_eq, clearWdtPair_of_disabled h, State.charge_eq]

/-! ## Cycles -/

/-- From `s` to `t` at least `lo` and at most `hi` instruction cycles have been charged. -/
def Charges (lo hi : Nat) (s t : State) : Prop := s.cycles + lo ≤ t.cycles ∧ t.cycles ≤ s.cycles + hi

section
variable {s t u : State} {lo hi lo' hi' : Nat} (m : DAddr)

theorem Charges.trans (h : Charges lo hi s t) (k : Charges lo' hi' t u) : Charges (lo + lo') (hi + hi') s u := by
  unfold Charges at *
  omega

theorem Charges.mono (h : Charges lo hi s t) (hlo : lo' ≤ lo) (hhi : hi ≤ hi') : Charges lo' hi' s t := by
  unfold Charges at *
  omega

/-- What leaves the count of cycles charges none. -/
theorem Charges.of_eq (h : t.cycles = s.cycles) : Charges 0 0 s t := by
  unfold Charges
  omega

theorem charges_charge (s : State) (n : Nat) : Charges n n s (s.charge n) := ⟨le_rfl, le_rfl⟩

theorem charges_skipIf (s : State) (b : Bool) : Charges 0 1 s (s.skipIf b) := by
  rw [State.skipIf_eq]
  exact ⟨Nat.le_add_right _ _, Nat.add_le_add_left b.toNat_le _⟩

theorem charges_regWrite (s : State) (v : Byte) (r : Sfr) : Charges 0 1 s (regWrite s v r) := by
  cases r with
  | pcl => exact (charges_charge _ 1).mono (Nat.zero_le 1) le_rfl
  | _ => exact (Charges.of_eq rfl).mono le_rfl (Nat.zero_le 1)

theorem charges_memWrite (s : State) (v : Byte) : Charges 0 1 s (memWrite s m v) := by
  have hnone : Charges 0 1 s s := (Charges.of_eq rfl).mono le_rfl (Nat.zero_le 1)
  rcases memWrite_cases s m v with ⟨r, -, h⟩ | ⟨-, h⟩ | ⟨-, h⟩ <;> rw [h]
  · exact charges_regWrite s v r
  · exact hnone
  · exact hnone

theorem charges_afterRead (s : State) : Charges 0 0 s (afterRead s m) := .of_eq (afterRead_cycles s m)

theorem charges_resultToAcc (s : State) (o : AluOut) : Charges 0 0 s (resultToAcc s o) := .of_eq rfl

theorem charges_resultToMem (s : State) (o : AluOut) : Charges 0 1 s (resultToMem s m o) := by
  rcases resultToMem_cases s m o with ⟨-, -, h⟩ | ⟨-, h⟩ <;> rw [h]
  · exact (Charges.of_eq rfl).mono le_rfl (Nat.zero_le 1)
  · exact charges_memWrite m s o.value

theorem charges_readToAcc (s : State) (f : Byte → AluOut) : Charges 1 1 s (readToAcc f m s) :=
  ((charges_afterRead m s).trans (charges_resultToAcc _ _)).trans (charges_charge _ 1)

theorem charges_readModifyWrite (s : State) (f : Byte → AluOut) : Charges 1 2 s (readModifyWrite f m s) :=
  ((charges_afterRead m s).trans (charges_resultToMem m _ _)).trans (charges_charge _ 1)

theorem charges_writeOnly (s : State) (o : AluOut) : Charges 1 2 s (writeOnly o m s) :=
  (charges_resultToMem m s o).trans (charges_charge _ 1)

theorem charges_immediateToAcc (s : State) (o : AluOut) : Charges 1 1 s (immediateToAcc o s) :=
  (charges_resultToAcc s o).trans (charges_charge _ 1)

theorem charges_testAndSkip (s : State) (test : Byte → Bool) : Charges 1 2 s (testAndSkip test m s) :=
  ((charges_afterRead m s).trans (charges_charge _ 1)).trans (charges_skipIf _ _)

theorem charges_loadAndSkip (s : State) (f : Byte → Byte) : Charges 1 2 s (loadAndSkip f m s) :=
  (charges_readToAcc m s _).trans (charges_skipIf _ _)

theorem charges_modifyAndSkip (s : State) (f : Byte → Byte) : Charges 1 3 s (modifyAndSkip f m s) := by
  unfold modifyAndSkip skipOnZeroResult
  split <;> exact (charges_readModifyWrite m s _).trans (charges_skipIf _ _)

theorem charges_tableRead (s : State) (a : PAddr) : Charges 2 3 s (tableRead a m s) :=
  (charges_memWrite m s _).trans (charges_charge (State.withTblh _ _) 2)

theorem charges_clearWdtOtherMethod (s : State) : Charges 0 0 s (clearWdtOtherMethod s) := by
  rcases clearWdtOtherMethod_eq_or_eq s with h | h <;> rw [h] <;> exact .of_eq rfl

theorem charges_clearWdtPair (s : State) (which : WdtLast) : Charges 0 0 s (clearWdtPair which s) := by
  unfold clearWdtPair
  split
  · exact .of_eq rfl
  · split
    · dsimp only
      split <;> exact .of_eq rfl
    · exact charges_clearWdtOtherMethod s

theorem charges_execClrWdt (h : execClrWdt s = .next t) : Charges 1 1 s t := by
  cases h
  refine Charges.trans (lo := 0) (hi := 0) ?_ (charges_charge _ 1)
  split
  · exact .of_eq rfl
  · split
    · exact charges_clearWdtOtherMethod s
    · exact .of_eq rfl

/-- Every instruction charges one to three cycles (R440). -/
theorem charges_exec {i : Instr} (h : exec i s = .next t) : Charges 1 3 s t := by
  cases i with
  | addAM m | adcAM m | subAM m | sbcAM m | andAM m | orAM m | xorAM m | cplaM m | incaM m | decaM m
  | rraM m | rrcaM m | rlaM m | rlcaM m | swapaM m | movAM m =>
    cases h; exact (charges_readToAcc m s _).mono le_rfl (by decide)
  | addmAM m | adcmAM m | submAM m | sbcmAM m | andmAM m | ormAM m | xormAM m | cplM m | incM m | decM m
  | rrM m | rrcM m | rlM m | rlcM m | swapM m | clrMi m i | setMi m i =>
    cases h; exact (charges_readModifyWrite m s _).mono le_rfl (by decide)
  | movMA m | clrM m | setM m | daaM m => cases h; exact (charges_writeOnly m s _).mono le_rfl (by decide)
  | addAX x | subAX x | andAX x | orAX x | xorAX x | movAX x =>
    cases h; exact (charges_immediateToAcc s _).mono le_rfl (by decide)
  | szM m | szMi m i | snzMi m i => cases h; exact (charges_testAndSkip m s _).mono le_rfl (by decide)
  | szaM m | sizaM m | sdzaM m => cases h; exact (charges_loadAndSkip m s _).mono le_rfl (by decide)
  | sizM m | sdzM m => cases h; exact charges_modifyAndSkip m s _
  | tabrdcM m | tabrdlM m => cases h; exact (charges_tableRead m s _).mono (by decide) le_rfl
  | jmpAddr addr | callAddr addr | ret | retAX x | reti =>
    cases h; exact (charges_charge _ 2).mono (by decide) (by decide)
  | nop | halt => cases h; exact (charges_charge _ 1).mono le_rfl (by decide)
  | clrWdt => exact (charges_execClrWdt h).mono le_rfl (by decide)
  | clrWdt1 | clrWdt2 =>
    cases h; exact ((charges_clearWdtPair s _).trans (charges_charge _ 1)).mono le_rfl (by decide)

end

/-- Settles O39: `exec_coreFrame` for what is not the core's own, `charges_exec` for the cycles; there is no fault (R310). -/
theorem everyInstructionCompletes : Obligations.EveryInstructionCompletes := by
  refine ⟨fun i s => ?completes, fun _ f => nomatch f⟩
  case completes =>
    obtain ⟨t, hexec, hframe⟩ := exec_coreFrame s i
    obtain ⟨hleast, hmost⟩ := charges_exec hexec
    exact ⟨t, hexec, hframe.cfg, hframe.program, hframe.pins, hframe.seen, hframe.pfd, hframe.oscDivider, hframe.eeprom,
      hframe.script, hframe.draws, hleast, hmost⟩

/-! ## Only HALT halts -/

/-- The core runs. -/
def State.Running (s : State) : Prop := s.mode = .running

section
variable {s t : State}

theorem State.Running.requestInterrupt (h : s.Running) (k : IrqSource) : (requestInterrupt k s).Running := by
  rcases requestInterrupt_cases s k with heq | heq <;> rw [heq]
  · exact h
  · rfl

theorem State.Running.clockPfd (h : s.Running) (src : PfdSource) : (clockPfd src s).Running := by
  unfold Machine.clockPfd
  split <;> exact h

theorem State.Running.countTimer0 (h : s.Running) : (countTimer0 s).Running := by
  rcases countTimer0_cases s with ⟨-, heq⟩ | ⟨-, heq⟩ <;> rw [heq]
  · exact h
  · exact State.Running.requestInterrupt (State.Running.clockPfd (by exact h) _) _

theorem State.Running.countTimer1 (h : s.Running) : (countTimer1 s).Running := by
  rcases countTimer1_cases s with ⟨-, heq⟩ | ⟨-, heq⟩ <;> rw [heq]
  · exact h
  · exact State.Running.requestInterrupt (State.Running.clockPfd (by exact h) _) _

theorem State.Running.seeEvent0 (h : s.Running) : (seeEvent0 s).Running := by
  rcases seeEvent0_cases s with heq | ⟨-, heq⟩ <;> rw [heq]
  · exact h
  · exact State.Running.countTimer0 (s := s.withTmr0 _) h

theorem State.Running.seeEvent1 (h : s.Running) : (seeEvent1 s).Running := by
  rcases seeEvent1_cases s with heq | ⟨-, heq⟩ <;> rw [heq]
  · exact h
  · exact State.Running.countTimer1 (s := s.withTmr1 _) h

theorem State.Running.transitionTimer0 (h : s.Running) (clocked rising : Bool) :
    (transitionTimer0 clocked rising s).Running := by
  rcases transitionTimer0_cases s clocked rising with heq | ⟨-, -, heq⟩ | ⟨-, -, heq⟩ <;> rw [heq]
  · exact h
  · unfold eventTimer0
    dsimp only
    split
    · exact h.seeEvent0
    · exact h.seeEvent0.countTimer0
  · exact h

theorem State.Running.transitionTimer1 (h : s.Running) (clocked rising : Bool) :
    (transitionTimer1 clocked rising s).Running := by
  rcases transitionTimer1_cases s clocked rising with heq | ⟨-, -, heq⟩ | ⟨-, -, heq⟩ <;> rw [heq]
  · exact h
  · unfold eventTimer1
    dsimp only
    split
    · exact h.seeEvent1
    · exact h.seeEvent1.countTimer1
  · exact h

theorem State.Running.tickTimer0 (h : s.Running) : (tickTimer0 s).Running := by
  rcases tickTimer0_cases s with heq | ⟨-, -, heq⟩ | ⟨-, -, t, rfl, heq⟩ <;> rw [heq]
  · exact h
  · exact h.countTimer0
  · split
    · exact State.Running.countTimer0 (s := s.withTmr0 _) h
    · exact h

theorem State.Running.tickTimer1 (h : s.Running) : (tickTimer1 s).Running := by
  rcases tickTimer1_cases s with heq | ⟨-, -, heq⟩ | ⟨-, -, t, rfl, heq⟩ <;> rw [heq]
  · exact h
  · exact h.countTimer1
  · split
    · exact State.Running.countTimer1 (s := s.withTmr1 _) h
    · exact h

/-- After a reset the core runs, whatever it did before (R75). -/
theorem running_applyReset (k : ResetKind) (s : State) : (applyReset k s).Running := by cases k <;> rfl

theorem State.Running.clockWdt (h : s.Running) : (clockWdt s).Running := by
  rcases clockWdt_cases s with ⟨w, heq⟩ | ⟨-, w, heq⟩ <;> rw [heq]
  · exact h
  · unfold wdtReset
    split <;> exact running_applyReset _ _

theorem State.Running.senseEeprom (h : s.Running) : (senseEeprom s).Running := by
  obtain ⟨e, d, heq⟩ := senseEeprom_eq s
  rw [heq]
  exact h

/-- No action of an agent halts the core. -/
theorem running_agentStable : AgentStable State.Running where
  seen _ _ h := h
  pins _ _ h := h
  script _ _ _ _ h := h
  draws _ _ h := h
  wake _ _ := rfl
  request _ k h := h.requestInterrupt k
  transition0 _ clocked rising h := h.transitionTimer0 clocked rising
  transition1 _ clocked rising h := h.transitionTimer1 clocked rising
  count0 _ h := h.countTimer0
  oscillator _ _ h := h
  see0 _ h := h.seeEvent0
  see1 _ h := h.seeEvent1
  tick0 _ h := h.tickTimer0
  tick1 _ h := h.tickTimer1
  prescaler _ _ h := h
  watchdog _ h := h.clockWdt
  reset s k _ _ _ := running_applyReset k s
  eeprom _ h := h.senseEeprom
  busy _ _ h := h

/-- No operation that the instructions other than the four of the watchdog are made of halts the core. -/
theorem running_coreStable : CoreStable State.Running where
  acc _ _ h := h
  pc _ _ h := h
  tblh _ _ h := h
  cycles _ _ h := h
  intc _ _ h := h
  push _ _ h := h
  pop _ h := h
  buffer _ _ h := h
  flags _ _ _ _ h := h
  memWrite s m v h := (memWrite_mode s m v).trans h

theorem State.Running.clearWdtOtherMethod (h : s.Running) : (clearWdtOtherMethod s).Running := by
  rcases clearWdtOtherMethod_eq_or_eq s with heq | heq <;> rw [heq] <;> exact h

theorem State.Running.clearWdtPair (h : s.Running) (which : WdtLast) : (clearWdtPair which s).Running := by
  unfold Machine.clearWdtPair
  split
  · exact h
  · split
    · dsimp only
      split <;> exact h
    · exact h.clearWdtOtherMethod

theorem State.Running.execClrWdt (h : s.Running) (hexec : execClrWdt s = .next t) : t.Running := by
  cases hexec
  refine running_coreStable.charge 1 ?_
  split
  · exact h
  · split
    · exact h.clearWdtOtherMethod
    · exact h

/-- No instruction but HALT halts the core. -/
theorem State.Running.exec (h : s.Running) {i : Instr} (hi : i ≠ .halt) (hexec : exec i s = .next t) : t.Running := by
  by_cases hw : i ∈ watchdogInstrs
  · simp only [watchdogInstrs, List.mem_cons, List.not_mem_nil, or_false] at hw
    rcases hw with rfl | rfl | rfl | rfl
    · exact h.execClrWdt hexec
    · cases hexec; exact running_coreStable.charge 1 (h.clearWdtPair .first)
    · cases hexec; exact running_coreStable.charge 1 (h.clearWdtPair .second)
    · exact absurd rfl hi
  · exact running_coreStable.exec hw hexec h

end

/-- Settles O40: an interrupt entry, another instruction and the agents' run keep a running core running. -/
theorem onlyHaltHalts : Obligations.OnlyHaltHalts := by
  intro s t hrunning hstep hhalted
  have hnot : ¬t.Running := fun h => nomatch h.symm.trans hhalted
  rcases step_cases s hstep with ⟨hmode, -⟩ | ⟨-, k, -, rfl⟩ | ⟨-, hirq, i, u, hdecode, hexec, -, rfl⟩
  · exact nomatch hrunning.symm.trans hmode
  · have hentry : (enterInterrupt k s).Running := running_coreStable.enterInterrupt k hrunning
    exact absurd (running_agentStable.runAgents (u := enterInterrupt k s) hentry) hnot
  · by_cases hi : i = .halt
    · exact ⟨hirq, hi ▸ hdecode⟩
    · have hfetch : (afterFetch s).Running := hrunning
      have hinstr : u.Running := hfetch.exec hi hexec
      exact absurd (running_agentStable.runAgents (u := u) hinstr) hnot

end Sys2Proof.Machine
end

section
/-! SUPPORT. Interrupts (60_exceptions.md R320 to R330): which source is accepted, the entry, and the hold-off by a full stack. -/

namespace Sys2Proof.Machine

/-! ## Acceptance -/

section
variable {s t : State} {k : IrqSource}

theorem pending_iff (i : Interrupts) (k : IrqSource) : i.pending k = true ↔ i.flag k = true ∧ i.enable k = true := by
  simp [Interrupts.pending]

/-- The core can take an interrupt at all: EMI = 1 and SP < 4 (R325). -/
def State.Interruptible (s : State) : Prop := s.intc.emi = true ∧ s.stack.length < 4

/-- No source of higher priority than `k` is pending. -/
def Interrupts.Foremost (i : Interrupts) (k : IrqSource) : Prop :=
  ∀ j : IrqSource, j.priority < k.priority → ¬i.pending j = true

theorem Interrupts.foremost_external (i : Interrupts) : i.Foremost .external := by
  intro j hj
  cases j <;> simp [IrqSource.priority] at hj

theorem Interrupts.foremost_timer0 {i : Interrupts} : i.Foremost .timer0 ↔ ¬i.pending .external = true := by
  refine ⟨fun h => h .external (by decide), fun h j hj => ?_⟩
  cases j <;> simp [IrqSource.priority] at hj
  exact h

theorem Interrupts.foremost_timer1 {i : Interrupts} :
    i.Foremost .timer1 ↔ ¬i.pending .external = true ∧ ¬i.pending .timer0 = true := by
  refine ⟨fun h => ⟨h .external (by decide), h .timer0 (by decide)⟩, fun ⟨h0, h1⟩ j hj => ?_⟩
  cases j <;> simp [IrqSource.priority] at hj
  · exact h0
  · exact h1

theorem Interrupts.foremost_comparator {i : Interrupts} : i.Foremost .comparator ↔
    ¬i.pending .external = true ∧ ¬i.pending .timer0 = true ∧ ¬i.pending .timer1 = true := by
  refine ⟨fun h => ⟨h .external (by decide), h .timer0 (by decide), h .timer1 (by decide)⟩,
    fun ⟨h0, h1, h2⟩ j hj => ?_⟩
  cases j <;> simp [IrqSource.priority] at hj
  · exact h0
  · exact h1
  · exact h2

theorem acceptable_of_not_interruptible (h : ¬s.Interruptible) : acceptable s = none := by
  unfold State.Interruptible at h
  simp only [acceptable, Bool.and_eq_true, decide_eq_true_eq, h, if_false]

/-- R325: the source accepted is pending, and none of higher priority is. -/
theorem acceptable_eq_some_iff :
    acceptable s = some k ↔ s.Interruptible ∧ s.intc.pending k = true ∧ s.intc.Foremost k := by
  by_cases hcan : s.Interruptible
  · have hguard : (s.intc.emi && decide (s.stack.length < 4)) = true := by simp [hcan.1, hcan.2]
    unfold acceptable
    rw [if_pos hguard]
    cases k with
    | external => have hforemost := Interrupts.foremost_external s.intc; grind
    | timer0 => rw [Interrupts.foremost_timer0]; grind
    | timer1 => rw [Interrupts.foremost_timer1]; grind
    | comparator => rw [Interrupts.foremost_comparator]; grind
  · simp [acceptable_of_not_interruptible hcan, hcan]

/-- An interruptible core with a pending source accepts one. -/
theorem exists_acceptable (hcan : s.Interruptible) (hk : s.intc.pending k = true) : ∃ j, acceptable s = some j := by
  by_contra hnone
  have hno (j : IrqSource) (hforemost : s.intc.Foremost j) : ¬s.intc.pending j = true := fun hj =>
    hnone ⟨j, acceptable_eq_some_iff.mpr ⟨hcan, hj, hforemost⟩⟩
  have h0 := hno .external (Interrupts.foremost_external _)
  have h1 := hno .timer0 (Interrupts.foremost_timer0.mpr h0)
  have h2 := hno .timer1 (Interrupts.foremost_timer1.mpr ⟨h0, h1⟩)
  have h3 := hno .comparator (Interrupts.foremost_comparator.mpr ⟨h0, h1, h2⟩)
  cases k with
  | external => exact h0 hk
  | timer0 => exact h1 hk
  | timer1 => exact h2 hk
  | comparator => exact h3 hk

theorem step_of_acceptable (hmode : s.mode = .running) (h : acceptable s = some k) :
    step s = .next (interruptStep k s) := by
  simp only [step, hmode, h]

end

/-- Settles O8: `acceptable_eq_some_iff`, and the step by what is acceptable. -/
theorem acceptanceRule : Obligations.AcceptanceRule := by
  refine ⟨fun s k => ?rule, fun s k => step_of_acceptable, fun s t i => step_of_exec s⟩
  case rule =>
    simp only [acceptable_eq_some_iff, State.Interruptible, Interrupts.Foremost, pending_iff, and_assoc]

/-! ## The entry -/

section
variable {s : State} {k j : IrqSource}

theorem setFlag_flag_same (i : Interrupts) (b : Bool) (k : IrqSource) : (i.setFlag b k).flag k = b := by cases k <;> rfl

theorem setFlag_flag_of_ne (i : Interrupts) (b : Bool) (h : j ≠ k) : (i.setFlag b k).flag j = i.flag j := by
  revert h
  cases k <;> cases j <;> simp [Interrupts.setFlag, Interrupts.flag]

theorem setFlag_enable (i : Interrupts) (b : Bool) (k j : IrqSource) : (i.setFlag b k).enable j = i.enable j := by
  cases k <;> cases j <;> rfl

/-- EMI is no part of a source's flag and enable. -/
theorem flag_withEmi (i : Interrupts) (b : Bool) (k : IrqSource) : ({ i with emi := b } : Interrupts).flag k = i.flag k := by
  cases k <;> rfl

theorem enable_withEmi (i : Interrupts) (b : Bool) (k : IrqSource) :
    ({ i with emi := b } : Interrupts).enable k = i.enable k := by
  cases k <;> rfl

/-- Where an interrupt is acceptable the stack has room for its entry (R330). -/
theorem enterInterrupt_stack (h : acceptable s = some k) : (enterInterrupt k s).stack = s.stack ++ [s.pc] := by
  obtain ⟨⟨-, hroom⟩, -⟩ := acceptable_eq_some_iff.mp h
  exact congrArg State.stack (s.push_room s.pc hroom)

end

/-- Settles O9: `enterInterrupt` field by field. -/
theorem interruptEntry : Obligations.InterruptEntry := by
  intro s k hmode hk
  refine ⟨enterInterrupt k s, step_of_acceptable hmode hk, enterInterrupt_stack hk, ?ext, ?tmr0, ?tmr1, ?cmp, rfl, ?flag,
    fun j hj => ?others, fun j => ?enables, rfl⟩
  case ext | tmr0 | tmr1 | cmp => rintro rfl; rfl
  case flag => exact (flag_withEmi _ _ k).trans (setFlag_flag_same _ _ k)
  case others => exact (flag_withEmi _ _ j).trans (setFlag_flag_of_ne _ _ hj)
  case enables => exact (enable_withEmi _ _ j).trans (setFlag_enable _ _ k j)

/-- Settles O11: four entries leave no room; RET makes some and leaves EMI, flags and enables. -/
theorem stackFullHoldsOff : Obligations.StackFullHoldsOff := by
  refine ⟨fun s k hfull hemi hflag henable => ⟨?heldOff, s.popPc.charge 2, ?_⟩, fun s k h => ?entry⟩
  case heldOff => exact acceptable_of_not_interruptible fun ⟨_, hroom⟩ => by omega
  case entry =>
    obtain ⟨⟨-, hroom⟩, -⟩ := acceptable_eq_some_iff.mp h
    rw [enterInterrupt_stack h, List.length_append, List.length_singleton]
    omega
  have hcan : (s.popPc.charge 2).Interruptible := ⟨hemi, by simp [hfull]⟩
  have hpending : (s.popPc.charge 2).intc.pending k = true := (pending_iff _ k).mpr ⟨hflag, henable⟩
  obtain ⟨j, hj⟩ := exists_acceptable hcan hpending
  exact ⟨j, exec_ret_eq, rfl, hj⟩

end Sys2Proof.Machine
end

section
/-! SUPPORT. What the counts, clocks and pin transitions of each timer can touch, and the look at the inputs (R76) as its five
edge detectors in turn, each with the fields it leaves (60_exceptions.md R321, R323, R343, R347 to R349, R373, R384). -/

namespace Sys2Proof.Machine

/-! ## One timer's fields -/

/-- `s`, but with what Timer 0's actions write taken from `t`: the timer, its request, the PFD flip-flop and the mode. -/
def State.timer0As (s t : State) : State :=
  { s with tmr0 := t.tmr0, intc := { s.intc with t0f := t.intc.t0f }, pfd := t.pfd, mode := t.mode }

/-- `s`, but with what Timer 1's actions write taken from `t`. -/
def State.timer1As (s t : State) : State :=
  { s with tmr1 := t.tmr1, intc := { s.intc with t1f := t.intc.t1f }, pfd := t.pfd, mode := t.mode }

/-- `t` differs from `s` at most in what Timer 0's actions write. -/
def Timer0Frame (s t : State) : Prop := t = s.timer0As t

/-- `t` differs from `s` at most in what Timer 1's actions write. -/
def Timer1Frame (s t : State) : Prop := t = s.timer1As t

section
variable {s t u : State}

theorem Timer0Frame.refl (s : State) : Timer0Frame s s := rfl
theorem Timer1Frame.refl (s : State) : Timer1Frame s s := rfl

theorem Timer0Frame.trans (h : Timer0Frame s t) (k : Timer0Frame t u) : Timer0Frame s u :=
  calc u = t.timer0As u := k
    _ = (s.timer0As t).timer0As u := congrArg (·.timer0As u) h
    _ = s.timer0As u := rfl

theorem Timer1Frame.trans (h : Timer1Frame s t) (k : Timer1Frame t u) : Timer1Frame s u :=
  calc u = t.timer1As u := k
    _ = (s.timer1As t).timer1As u := congrArg (·.timer1As u) h
    _ = s.timer1As u := rfl

theorem Timer0Frame.ite (c : Prop) [Decidable c] (h : Timer0Frame s t) (k : Timer0Frame s u) :
    Timer0Frame s (if c then t else u) := by
  split <;> assumption

theorem Timer1Frame.ite (c : Prop) [Decidable c] (h : Timer1Frame s t) (k : Timer1Frame s u) :
    Timer1Frame s (if c then t else u) := by
  split <;> assumption

theorem Timer0Frame.cfg (h : Timer0Frame s t) : t.cfg = s.cfg := (congrArg State.cfg h :)
theorem Timer0Frame.tmr1 (h : Timer0Frame s t) : t.tmr1 = s.tmr1 := (congrArg State.tmr1 h :)
theorem Timer0Frame.analog (h : Timer0Frame s t) : t.analog = s.analog := (congrArg State.analog h :)
theorem Timer0Frame.oscDivider (h : Timer0Frame s t) : t.oscDivider = s.oscDivider := (congrArg State.oscDivider h :)
theorem Timer0Frame.t1f (h : Timer0Frame s t) : t.intc.t1f = s.intc.t1f := (congrArg (·.intc.t1f) h :)
theorem Timer0Frame.eif (h : Timer0Frame s t) : t.intc.eif = s.intc.eif := (congrArg (·.intc.eif) h :)
theorem Timer0Frame.cf (h : Timer0Frame s t) : t.intc.cf = s.intc.cf := (congrArg (·.intc.cf) h :)

theorem Timer1Frame.cfg (h : Timer1Frame s t) : t.cfg = s.cfg := (congrArg State.cfg h :)
theorem Timer1Frame.tmr0 (h : Timer1Frame s t) : t.tmr0 = s.tmr0 := (congrArg State.tmr0 h :)
theorem Timer1Frame.analog (h : Timer1Frame s t) : t.analog = s.analog := (congrArg State.analog h :)
theorem Timer1Frame.t0f (h : Timer1Frame s t) : t.intc.t0f = s.intc.t0f := (congrArg (·.intc.t0f) h :)
theorem Timer1Frame.eif (h : Timer1Frame s t) : t.intc.eif = s.intc.eif := (congrArg (·.intc.eif) h :)
theorem Timer1Frame.cf (h : Timer1Frame s t) : t.intc.cf = s.intc.cf := (congrArg (·.intc.cf) h :)

variable (s)

theorem timer0Frame_withTmr0 (v : Timer0) : Timer0Frame s (s.withTmr0 v) := rfl
theorem timer1Frame_withTmr1 (v : Timer1) : Timer1Frame s (s.withTmr1 v) := rfl

theorem timer0Frame_requestInterrupt : Timer0Frame s (requestInterrupt .timer0 s) := by
  rcases requestInterrupt_cases s .timer0 with h | h <;> rw [h] <;> rfl

theorem timer1Frame_requestInterrupt : Timer1Frame s (requestInterrupt .timer1 s) := by
  rcases requestInterrupt_cases s .timer1 with h | h <;> rw [h] <;> rfl

theorem timer0Frame_clockPfd (src : PfdSource) : Timer0Frame s (clockPfd src s) := by
  unfold clockPfd
  split <;> rfl

theorem timer1Frame_clockPfd (src : PfdSource) : Timer1Frame s (clockPfd src s) := by
  unfold clockPfd
  split <;> rfl

theorem timer0Frame_countTimer0 : Timer0Frame s (countTimer0 s) := by
  rcases countTimer0_cases s with ⟨-, h⟩ | ⟨-, h⟩ <;> rw [h]
  · exact timer0Frame_withTmr0 s _
  · exact ((timer0Frame_withTmr0 s _).trans (timer0Frame_clockPfd _ _)).trans (timer0Frame_requestInterrupt _)

theorem timer1Frame_countTimer1 : Timer1Frame s (countTimer1 s) := by
  rcases countTimer1_cases s with ⟨-, h⟩ | ⟨-, h⟩ <;> rw [h]
  · exact timer1Frame_withTmr1 s _
  · exact ((timer1Frame_withTmr1 s _).trans (timer1Frame_clockPfd _ _)).trans (timer1Frame_requestInterrupt _)

theorem timer0Frame_seeEvent0 : Timer0Frame s (seeEvent0 s) := by
  rcases seeEvent0_cases s with h | ⟨-, h⟩ <;> rw [h]
  · exact .refl s
  · exact (timer0Frame_withTmr0 s _).trans (timer0Frame_countTimer0 _)

theorem timer1Frame_seeEvent1 : Timer1Frame s (seeEvent1 s) := by
  rcases seeEvent1_cases s with h | ⟨-, h⟩ <;> rw [h]
  · exact .refl s
  · exact (timer1Frame_withTmr1 s _).trans (timer1Frame_countTimer1 _)

theorem timer0Frame_transitionTimer0 (clocked rising : Bool) : Timer0Frame s (transitionTimer0 clocked rising s) := by
  rcases transitionTimer0_cases s clocked rising with h | ⟨-, -, h⟩ | ⟨-, -, h⟩ <;> rw [h]
  · exact .refl s
  · exact (timer0Frame_seeEvent0 s).trans (.ite _ (timer0Frame_withTmr0 _ _) (timer0Frame_countTimer0 _))
  · exact timer0Frame_withTmr0 s _

theorem timer1Frame_transitionTimer1 (clocked rising : Bool) : Timer1Frame s (transitionTimer1 clocked rising s) := by
  rcases transitionTimer1_cases s clocked rising with h | ⟨-, -, h⟩ | ⟨-, -, h⟩ <;> rw [h]
  · exact .refl s
  · exact (timer1Frame_seeEvent1 s).trans (.ite _ (timer1Frame_withTmr1 _ _) (timer1Frame_countTimer1 _))
  · exact timer1Frame_withTmr1 s _

theorem timer0Frame_tickTimer0 : Timer0Frame s (tickTimer0 s) := by
  rcases tickTimer0_cases s with h | ⟨-, -, h⟩ | ⟨-, -, t, rfl, h⟩ <;> rw [h]
  · exact .refl s
  · exact timer0Frame_countTimer0 s
  · exact (timer0Frame_withTmr0 s _).trans (.ite _ (timer0Frame_countTimer0 _) (.refl _))

theorem timer0Frame_transitionCountSource (rising : Bool) : Timer0Frame s (transitionCountSource rising s) :=
  .ite _ (timer0Frame_countTimer0 s) (.refl s)

theorem timer0Frame_systemClockTimer0 : Timer0Frame s (systemClockTimer0 s) :=
  have hprescaler := (timer0Frame_seeEvent0 s).trans (timer0Frame_withTmr0 _ { (seeEvent0 s).tmr0 with prescaler := _ })
  .ite _ (hprescaler.trans (timer0Frame_tickTimer0 _)) hprescaler

end

/-! ## The look at the inputs, one edge detector at a time -/

section
variable (s : State)

/-- The levels the edge detectors see. -/
def seenNow : Seen := { pa := paLevel s, pb1 := getBit (pbLevel s) 1, cmp := s.pins.cmpOut, cnt := s.pins.cntSrc }

/-- What a look at the inputs reacts to: `act` on `t` if the level has changed. -/
def onChange (now old : Bool) (act : State → State) (t : State) : State := if now != old then act t else t

/-- The new levels are noted. -/
def noteLevels : State := s.withSeen (seenNow s)

/-- PA1 as INT (R321, R384). -/
def detectInt : State :=
  onChange (getBit (paLevel s) 1) (getBit s.seen.pa 1) (transitionInt (getBit (paLevel s) 1)) (noteLevels s)

/-- PA1 as TMR0 (R384). -/
def detectTmr0 : State :=
  onChange (getBit (paLevel s) 1) (getBit s.seen.pa 1) (transitionTimer0 (s.mode == .running) (getBit (paLevel s) 1))
    (detectInt s)

/-- PB1 as TMR1 (R384). -/
def detectTmr1 : State :=
  onChange (getBit (pbLevel s) 1) s.seen.pb1 (transitionTimer1 (s.mode == .running) (getBit (pbLevel s) 1)) (detectTmr0 s)

/-- The comparator's output (R323, R373). -/
def detectComparator : State := onChange s.pins.cmpOut s.seen.cmp (transitionComparator s.pins.cmpOut) (detectTmr1 s)

/-- The signal Timer 0 counts in mode 00 (R348). -/
def detectCountSource : State := onChange s.pins.cntSrc s.seen.cnt (transitionCountSource s.pins.cntSrc) (detectComparator s)

/-- R76: a look at the inputs is the five detectors, the wake-up pins and the EEPROM, in this order. -/
theorem sense_eq_detectors : sense s = senseEeprom (wakeOnPa s.seen.pa (paLevel s) (detectCountSource s)) := by
  unfold detectCountSource detectComparator detectTmr1 detectTmr0 detectInt onChange
  cases h : getBit (paLevel s) 1 != getBit s.seen.pa 1 <;> simp only [sense, h, noteLevels, seenNow] <;> rfl

end

/-! ## The fields each detector leaves -/

section
variable {s t u : State} {now old : Bool} {act : State → State}

theorem onChange_of_ne (h : now ≠ old) : onChange now old act t = act t := by simp [onChange, h]

/-- What the reaction leaves, the detector leaves. -/
theorem onChange_keeps {α : Type} {f : State → α} (h : f (act t) = f t) : f (onChange now old act t) = f t := by
  unfold onChange
  split
  · exact h
  · rfl

/-- What Timer 0 shows: the timer and its request. -/
def State.view0 (s : State) : Timer0 × Bool := (s.tmr0, s.intc.t0f)

/-- What Timer 1 shows: the timer and its request. -/
def State.view1 (s : State) : Timer1 × Bool := (s.tmr1, s.intc.t1f)

theorem Timer0Frame.view1 (h : Timer0Frame s t) : t.view1 = s.view1 := (congrArg State.view1 h :)
theorem Timer1Frame.view0 (h : Timer1Frame s t) : t.view0 = s.view0 := (congrArg State.view0 h :)

variable (s)

theorem requestInterrupt_intc (k : IrqSource) : (requestInterrupt k s).intc = s.intc.setFlag true k := by
  rcases requestInterrupt_cases s k with h | h <;> rw [h] <;> rfl

theorem requestInterrupt_cfg (k : IrqSource) : (requestInterrupt k s).cfg = s.cfg := by
  rcases requestInterrupt_cases s k with h | h <;> rw [h] <;> rfl

/-- INT is a request or nothing (R321). -/
theorem transitionInt_cases (rising : Bool) :
    transitionInt rising s = requestInterrupt .external s ∨ transitionInt rising s = s :=
  ite_eq_or_eq ..

/-- The comparator is a request or nothing (R323). -/
theorem transitionComparator_cases (rising : Bool) :
    transitionComparator rising s = requestInterrupt .comparator s ∨ transitionComparator rising s = s :=
  ite_eq_or_eq ..

theorem transitionInt_views (rising : Bool) :
    (transitionInt rising s).view0 = s.view0 ∧ (transitionInt rising s).view1 = s.view1
      ∧ (transitionInt rising s).intc.cf = s.intc.cf := by
  rcases transitionInt_cases s rising with h | h <;> rw [h]
  · simp [State.view0, State.view1, requestInterrupt_intc, Interrupts.setFlag]
  · exact ⟨rfl, rfl, rfl⟩

theorem transitionComparator_views (rising : Bool) :
    (transitionComparator rising s).view0 = s.view0 ∧ (transitionComparator rising s).view1 = s.view1
      ∧ (transitionComparator rising s).intc.eif = s.intc.eif := by
  rcases transitionComparator_cases s rising with h | h <;> rw [h]
  · simp [State.view0, State.view1, requestInterrupt_intc, Interrupts.setFlag]
  · exact ⟨rfl, rfl, rfl⟩

/-- The wake-up pins and the EEPROM have no part in the timers and the requests. -/
theorem sense_tmr0_tmr1_intc : (sense s).tmr0 = (detectCountSource s).tmr0 ∧ (sense s).tmr1 = (detectCountSource s).tmr1
    ∧ (sense s).intc = (detectCountSource s).intc := by
  rw [sense_eq_detectors]
  obtain ⟨e, d, h⟩ := senseEeprom_eq (wakeOnPa s.seen.pa (paLevel s) (detectCountSource s))
  rw [h]
  unfold wakeOnPa
  split <;> exact ⟨rfl, rfl, rfl⟩

theorem detectInt_view0 : (detectInt s).view0 = s.view0 := onChange_keeps (transitionInt_views _ _).1

theorem detectTmr0_view1 : (detectTmr0 s).view1 = s.view1 :=
  (onChange_keeps (timer0Frame_transitionTimer0 _ _ _).view1).trans (onChange_keeps (transitionInt_views _ _).2.1)

theorem detectComparator_view0 : (detectComparator s).view0 = (detectTmr0 s).view0 :=
  (onChange_keeps (transitionComparator_views _ _).1).trans (onChange_keeps (timer1Frame_transitionTimer1 _ _ _).view0)

theorem sense_view1 : (sense s).view1 = (detectTmr1 s).view1 := by
  obtain ⟨-, htmr1, hintc⟩ := sense_tmr0_tmr1_intc s
  calc (sense s).view1 = (detectCountSource s).view1 := by simp [State.view1, htmr1, hintc]
    _ = (detectComparator s).view1 := onChange_keeps (timer0Frame_transitionCountSource _ _).view1
    _ = (detectTmr1 s).view1 := onChange_keeps (transitionComparator_views _ _).2.1

theorem sense_view0 : (sense s).view0 = (detectCountSource s).view0 := by
  obtain ⟨htmr0, -, hintc⟩ := sense_tmr0_tmr1_intc s
  simp [State.view0, htmr0, hintc]

theorem sense_eif : (sense s).intc.eif = (detectInt s).intc.eif := by
  obtain ⟨-, -, hintc⟩ := sense_tmr0_tmr1_intc s
  calc (sense s).intc.eif = (detectCountSource s).intc.eif := by rw [hintc]
    _ = (detectComparator s).intc.eif :=
      onChange_keeps (f := fun t => t.intc.eif) (timer0Frame_transitionCountSource _ _).eif
    _ = (detectTmr1 s).intc.eif := onChange_keeps (f := fun t => t.intc.eif) (transitionComparator_views _ _).2.2
    _ = (detectTmr0 s).intc.eif := onChange_keeps (f := fun t => t.intc.eif) (timer1Frame_transitionTimer1 _ _ _).eif
    _ = (detectInt s).intc.eif := onChange_keeps (f := fun t => t.intc.eif) (timer0Frame_transitionTimer0 _ _ _).eif

theorem sense_cf : (sense s).intc.cf = (detectComparator s).intc.cf := by
  obtain ⟨-, -, hintc⟩ := sense_tmr0_tmr1_intc s
  rw [hintc]
  exact onChange_keeps (f := fun t => t.intc.cf) (timer0Frame_transitionCountSource _ _).cf

/-- Up to the comparator's turn CF is as it was. -/
theorem detectTmr1_cf : (detectTmr1 s).intc.cf = s.intc.cf :=
  calc (detectTmr1 s).intc.cf = (detectTmr0 s).intc.cf :=
        onChange_keeps (f := fun t => t.intc.cf) (timer1Frame_transitionTimer1 _ _ _).cf
    _ = (detectInt s).intc.cf := onChange_keeps (f := fun t => t.intc.cf) (timer0Frame_transitionTimer0 _ _ _).cf
    _ = s.intc.cf := onChange_keeps (f := fun t => t.intc.cf) (transitionInt_views _ _).2.2

theorem DetectorFrame.onChange {s t : State} (h : DetectorFrame s t) (hact : ∀ v, DetectorFrame v (act v)) :
    DetectorFrame s (onChange now old act t) :=
  .ite _ (h.trans (hact t)) h

theorem detectorFrame_detectTmr1 : DetectorFrame s (detectTmr1 s) :=
  (((detectorFrame_withSeen s _).onChange (detectorFrame_transitionInt · _)).onChange
    (detectorFrame_transitionTimer0 · _ _)).onChange (detectorFrame_transitionTimer1 · _ _)

theorem detectorFrame_detectCountSource : DetectorFrame s (detectCountSource s) :=
  ((detectorFrame_detectTmr1 s).onChange (detectorFrame_transitionComparator · _)).onChange
    (detectorFrame_transitionCountSource · _)

end

/-! ## The requests of the inputs -/

section
variable {s : State}

/-- A request made under a condition adds the condition to the flag. -/
theorem flag_ite_request (u : State) (k : IrqSource) (c : Bool) :
    (if c = true then requestInterrupt k u else u).intc.flag k = (u.intc.flag k || c) := by
  cases c
  · exact (Bool.or_false _).symm
  · rw [if_pos rfl, requestInterrupt_intc, setFlag_flag_same, Bool.or_true]

theorem transitionInt_eif (u : State) (rising : Bool) : (transitionInt rising u).intc.eif =
    (u.intc.eif || getBit u.analog.misc (if rising then u.cfg.miscPos.intes0 else u.cfg.miscPos.intes1)) :=
  flag_ite_request u .external _

theorem transitionComparator_cf (u : State) (rising : Bool) : (transitionComparator rising u).intc.cf =
    (u.intc.cf || (!rising || getBit u.analog.misc u.cfg.miscPos.cmpes == u.cfg.cmpesBoth)) :=
  flag_ite_request u .comparator _

theorem detectInt_eif : (detectInt s).intc.eif = (s.intc.eif || (getBit (paLevel s) 1 != getBit s.seen.pa 1
    && getBit s.analog.misc (if getBit (paLevel s) 1 then s.cfg.miscPos.intes0 else s.cfg.miscPos.intes1))) := by
  unfold detectInt onChange
  split
  · rename_i h
    rw [transitionInt_eif, h]
    rfl
  · rename_i h
    rw [Bool.not_eq_true] at h
    rw [h, Bool.false_and, Bool.or_false]
    rfl

theorem detectComparator_cf : (detectComparator s).intc.cf = (s.intc.cf || (s.pins.cmpOut != s.seen.cmp
    && (!s.pins.cmpOut || getBit s.analog.misc s.cfg.miscPos.cmpes == s.cfg.cmpesBoth))) := by
  have hframe := detectorFrame_detectTmr1 s
  have hanalog : (detectTmr1 s).analog = s.analog := (congrArg State.analog hframe :)
  unfold detectComparator onChange
  split
  · rename_i h
    rw [transitionComparator_cf, h, detectTmr1_cf, hframe.cfg, hanalog, Bool.true_and]
  · rename_i h
    rw [Bool.not_eq_true] at h
    rw [h, detectTmr1_cf, Bool.false_and, Bool.or_false]

end

/-- Settles O51: EIF and CF after their detectors, in both directions of their inputs. -/
theorem requestsFromInputs : Obligations.RequestsFromInputs := by
  intro s
  rw [sense_eif, sense_cf, detectInt_eif, detectComparator_cf]
  refine ⟨?eif, ?cf⟩
  case eif => cases getBit (paLevel s) 1 <;> cases getBit s.seen.pa 1 <;> simp
  case cf => cases s.pins.cmpOut <;> cases s.seen.cmp <;> simp

end Sys2Proof.Machine
end

section
/-! SUPPORT. Counts and overflows of the timers (60_exceptions.md R322, R343), and the pulse width measurement at the timer
clocks (R349, R354). -/

namespace Sys2Proof.Machine

/-! ## One count -/

section
variable {s : State}

theorem requestInterrupt_pfd (s : State) (k : IrqSource) : (requestInterrupt k s).pfd = s.pfd := by
  rcases requestInterrupt_cases s k with h | h <;> rw [h] <;> rfl

theorem clockPfd_intc (src : PfdSource) (s : State) : (clockPfd src s).intc = s.intc := by
  unfold clockPfd
  split <;> rfl

/-- R386: the flip-flop toggles exactly when the timer is its source. -/
theorem clockPfd_pfd_eq_iff (src : PfdSource) (s : State) :
    (clockPfd src s).pfd = s.pfd ↔ s.cfg.opt.pfdSource ≠ src := by
  unfold clockPfd
  split <;> simp_all

theorem countTimer0_of_overflow (h : s.tmr0.counter = 0xFF#8) : countTimer0 s =
    requestInterrupt .timer0 (clockPfd .timer0 (s.withTmr0 { s.tmr0 with counter := s.tmr0.preload })) :=
  if_pos h

theorem countTimer1_of_overflow (h : s.tmr1.counter = 0xFFFF#16) : countTimer1 s =
    requestInterrupt .timer1 (clockPfd .timer1 (s.withTmr1 { s.tmr1 with counter := s.tmr1.preload })) :=
  if_pos h

theorem countTimer0_of_lt (h : s.tmr0.counter.toNat < 255) :
    countTimer0 s = s.withTmr0 { s.tmr0 with counter := s.tmr0.counter + 1 } :=
  if_neg fun heq => by simp [heq] at h

theorem countTimer1_of_lt (h : s.tmr1.counter.toNat < 65535) :
    countTimer1 s = s.withTmr1 { s.tmr1 with counter := s.tmr1.counter + 1 } :=
  if_neg fun heq => by simp [heq] at h

theorem countTimer0_intc_of_overflow (h : s.tmr0.counter = 0xFF#8) :
    (countTimer0 s).intc = { s.intc with t0f := true } := by
  rw [countTimer0_of_overflow h, requestInterrupt_intc, clockPfd_intc]
  rfl

theorem countTimer1_intc_of_overflow (h : s.tmr1.counter = 0xFFFF#16) :
    (countTimer1 s).intc = { s.intc with t1f := true } := by
  rw [countTimer1_of_overflow h, requestInterrupt_intc, clockPfd_intc]
  rfl

end

/-- The source of the PFD that is not one timer is the other. -/
theorem PfdSource.ne_timer0_iff {src : PfdSource} : src ≠ .timer0 ↔ src = .timer1 := by cases src <;> decide

theorem PfdSource.ne_timer1_iff {src : PfdSource} : src ≠ .timer1 ↔ src = .timer0 := by cases src <;> decide

/-- Settles O45: the request, the reload and the PFD's clock, for each timer. -/
theorem timerOverflows : Obligations.TimerOverflows := by
  refine ⟨fun s h => ⟨countTimer0_intc_of_overflow h, countTimer0_tmr0_of_overflow h, ?pfd0⟩,
    fun s h => ⟨countTimer1_intc_of_overflow h, countTimer1_tmr1_of_overflow h, ?pfd1⟩⟩
  case pfd0 =>
    rw [countTimer0_of_overflow h, requestInterrupt_pfd, ← PfdSource.ne_timer0_iff]
    exact clockPfd_pfd_eq_iff .timer0 (s.withTmr0 _)
  case pfd1 =>
    rw [countTimer1_of_overflow h, requestInterrupt_pfd, ← PfdSource.ne_timer1_iff]
    exact clockPfd_pfd_eq_iff .timer1 (s.withTmr1 _)

/-! ## Many counts -/

section
variable {s : State} {n : Nat}

theorem toNat_add_ofNat {w : Nat} {c : BitVec w} {n : Nat} (h : c.toNat + n < 2 ^ w) :
    (c + BitVec.ofNat w n).toNat = c.toNat + n := by
  rw [BitVec.toNat_add, BitVec.toNat_ofNat, Nat.add_mod_mod, Nat.mod_eq_of_lt h]

theorem add_ofNat_succ {w : Nat} (c : BitVec w) (n : Nat) : c + BitVec.ofNat w n + 1 = c + BitVec.ofNat w (n + 1) := by
  rw [BitVec.ofNat_add, BitVec.add_assoc]
  rfl

/-- Counts short of an overflow only advance the counter (R343). -/
theorem countTimer0_iterate (h : s.tmr0.counter.toNat + n < 256) :
    countTimer0^[n] s = s.withTmr0 { s.tmr0 with counter := s.tmr0.counter + BitVec.ofNat 8 n } := by
  induction n with
  | zero => rw [BitVec.add_zero]; rfl
  | succ n ih =>
    have hlt : (s.tmr0.counter + BitVec.ofNat 8 n).toNat < 255 := by rw [toNat_add_ofNat] <;> omega
    rw [Function.iterate_succ_apply', ih (by omega), countTimer0_of_lt hlt]
    simp only [State.withTmr0_withTmr0, State.withTmr0_tmr0, add_ofNat_succ]

theorem countTimer1_iterate (h : s.tmr1.counter.toNat + n < 65536) :
    countTimer1^[n] s = s.withTmr1 { s.tmr1 with counter := s.tmr1.counter + BitVec.ofNat 16 n } := by
  induction n with
  | zero => rw [BitVec.add_zero]; rfl
  | succ n ih =>
    have hlt : (s.tmr1.counter + BitVec.ofNat 16 n).toNat < 65535 := by rw [toNat_add_ofNat] <;> omega
    rw [Function.iterate_succ_apply', ih (by omega), countTimer1_of_lt hlt]
    simp only [State.withTmr1_withTmr1, State.withTmr1_tmr1, add_ofNat_succ]

/-- The count that overflows brings back the preload and requests (R322, R343). -/
theorem countTimer0_iterate_overflow (h : s.tmr0.counter.toNat + n = 256) :
    (countTimer0^[n] s).tmr0 = { s.tmr0 with counter := s.tmr0.preload } ∧ (countTimer0^[n] s).intc.t0f = true := by
  obtain ⟨n, rfl⟩ : ∃ k, n = k + 1 := ⟨n - 1, by omega⟩
  have hlast : s.tmr0.counter + BitVec.ofNat 8 n = 0xFF#8 :=
    BitVec.eq_of_toNat_eq (by rw [toNat_add_ofNat (by omega)]; simp; omega)
  rw [Function.iterate_succ_apply', countTimer0_iterate (by omega), countTimer0_tmr0_of_overflow hlast,
    countTimer0_intc_of_overflow hlast]
  exact ⟨rfl, rfl⟩

theorem countTimer1_iterate_overflow (h : s.tmr1.counter.toNat + n = 65536) :
    (countTimer1^[n] s).tmr1 = { s.tmr1 with counter := s.tmr1.preload } ∧ (countTimer1^[n] s).intc.t1f = true := by
  obtain ⟨n, rfl⟩ : ∃ k, n = k + 1 := ⟨n - 1, by omega⟩
  have hlast : s.tmr1.counter + BitVec.ofNat 16 n = 0xFFFF#16 :=
    BitVec.eq_of_toNat_eq (by rw [toNat_add_ofNat (by omega)]; simp; omega)
  rw [Function.iterate_succ_apply', countTimer1_iterate (by omega), countTimer1_tmr1_of_overflow hlast,
    countTimer1_intc_of_overflow hlast]
  exact ⟨rfl, rfl⟩

end

/-- Settles O46: the counts up to MAX, and the one after them. -/
theorem timerPeriods : Obligations.TimerPeriods := by
  refine ⟨fun s n h => ⟨fun hn => ?before0, fun hn => ?last0⟩, fun s n h => ⟨fun hn => ?before1, fun hn => ?last1⟩⟩
  case before0 => rw [countTimer0_iterate (by rw [h]; omega), h]
  case before1 => rw [countTimer1_iterate (by rw [h]; omega), h]
  case last0 =>
    have hlt := s.tmr0.preload.isLt
    obtain ⟨htmr, hflag⟩ := countTimer0_iterate_overflow (s := s) (n := n) (by rw [h]; omega)
    exact ⟨by rw [htmr, ← h], hflag⟩
  case last1 =>
    have hlt := s.tmr1.preload.isLt
    obtain ⟨htmr, hflag⟩ := countTimer1_iterate_overflow (s := s) (n := n) (by rw [h]; omega)
    exact ⟨by rw [htmr, ← h], hflag⟩

/-! ## Pulse width measurement -/

section
variable {s : State}

theorem tickTimer0_pulseWidth (hon : s.tmr0.on = true) (hmode : s.tmr0.mode = modePulseWidth) :
    tickTimer0 s = pulseTimer0 s := by
  simp +decide [tickTimer0, hon, hmode]

theorem tickTimer1_pulseWidth (hon : s.tmr1.on = true) (hmode : s.tmr1.mode = modePulseWidth) :
    tickTimer1 s = pulseTimer1 s := by
  simp +decide [tickTimer1, hon, hmode]

/-- Timer 0 is on in pulse width mode, in phase `p` of the measurement. -/
structure State.Pulse0 (s : State) (p : PulsePhase) : Prop where
  on : s.tmr0.on = true
  mode : s.tmr0.mode = modePulseWidth
  pulse : s.tmr0.pulse = p

/-- Timer 1 is on in pulse width mode, in phase `p` of the measurement. -/
structure State.Pulse1 (s : State) (p : PulsePhase) : Prop where
  on : s.tmr1.on = true
  mode : s.tmr1.mode = modePulseWidth
  pulse : s.tmr1.pulse = p

theorem State.Pulse0.withCounter {p : PulsePhase} (h : s.Pulse0 p) (c : BitVec 8) :
    (s.withTmr0 { s.tmr0 with counter := c }).Pulse0 p := { h with }

theorem State.Pulse1.withCounter {p : PulsePhase} (h : s.Pulse1 p) (c : BitVec 16) :
    (s.withTmr1 { s.tmr1 with counter := c }).Pulse1 p := { h with }

/-- A timer clock moves the measurement on and counts or does not (R349). -/
theorem State.Pulse0.tick_eq {p : PulsePhase} (h : s.Pulse0 p) : tickTimer0 s =
    if p.counts s.draws 0 = true then countTimer0 (s.withTmr0 { s.tmr0 with on := p.staysOn, pulse := p.next })
    else s.withTmr0 { s.tmr0 with on := p.staysOn, pulse := p.next } := by
  rw [tickTimer0_pulseWidth h.on h.mode, ← h.pulse]
  rfl

theorem State.Pulse0.tick {p : PulsePhase} (h : s.Pulse0 p) :
    tickTimer0 s = s.withTmr0 { s.tmr0 with on := p.staysOn, pulse := p.next }
    ∨ tickTimer0 s = countTimer0 (s.withTmr0 { s.tmr0 with on := p.staysOn, pulse := p.next }) := by
  rw [h.tick_eq]
  exact (ite_eq_or_eq ..).symm

/-- In a phase that stays, the measurement is as it was. -/
theorem State.Pulse0.same {p : PulsePhase} (h : s.Pulse0 p) (hon : p.staysOn = true) (hnext : p.next = p) :
    s.withTmr0 { s.tmr0 with on := p.staysOn, pulse := p.next } = s := by
  rw [hon, hnext, ← h.on, ← h.pulse]
  rfl

theorem State.Pulse1.tick_eq {p : PulsePhase} (h : s.Pulse1 p) : tickTimer1 s =
    if p.counts s.draws 3 = true then countTimer1 (s.withTmr1 { s.tmr1 with on := p.staysOn, pulse := p.next })
    else s.withTmr1 { s.tmr1 with on := p.staysOn, pulse := p.next } := by
  rw [tickTimer1_pulseWidth h.on h.mode, ← h.pulse]
  rfl

theorem State.Pulse1.tick {p : PulsePhase} (h : s.Pulse1 p) :
    tickTimer1 s = s.withTmr1 { s.tmr1 with on := p.staysOn, pulse := p.next }
    ∨ tickTimer1 s = countTimer1 (s.withTmr1 { s.tmr1 with on := p.staysOn, pulse := p.next }) := by
  rw [h.tick_eq]
  exact (ite_eq_or_eq ..).symm

theorem State.Pulse1.same {p : PulsePhase} (h : s.Pulse1 p) (hon : p.staysOn = true) (hnext : p.next = p) :
    s.withTmr1 { s.tmr1 with on := p.staysOn, pulse := p.next } = s := by
  rw [hon, hnext, ← h.on, ← h.pulse]
  rfl

/-- Before the pulse a timer clock does nothing. -/
theorem State.Pulse0.tick_idle (h : s.Pulse0 .idle) : tickTimer0 s = s := h.tick_eq.trans (h.same rfl rfl)

theorem State.Pulse1.tick_idle (h : s.Pulse1 .idle) : tickTimer1 s = s := h.tick_eq.trans (h.same rfl rfl)

/-- Within the pulse a timer clock is a count. -/
theorem State.Pulse0.tick_measuring (h : s.Pulse0 .measuring) : tickTimer0 s = countTimer0 s :=
  h.tick_eq.trans (congrArg countTimer0 (h.same rfl rfl))

theorem State.Pulse1.tick_measuring (h : s.Pulse1 .measuring) : tickTimer1 s = countTimer1 s :=
  h.tick_eq.trans (congrArg countTimer1 (h.same rfl rfl))

/-- Within the pulse `k` timer clocks are `k` counts, short of an overflow. -/
theorem State.Pulse0.tick_iterate (h : s.Pulse0 .measuring) {k : Nat} (hk : s.tmr0.counter.toNat + k < 256) :
    tickTimer0^[k] s = s.withTmr0 { s.tmr0 with counter := s.tmr0.counter + BitVec.ofNat 8 k } := by
  rw [← countTimer0_iterate hk]
  induction k with
  | zero => rfl
  | succ k ih =>
    rw [Function.iterate_succ_apply', Function.iterate_succ_apply', ih (by omega), countTimer0_iterate (by omega)]
    exact (h.withCounter _).tick_measuring

theorem State.Pulse1.tick_iterate (h : s.Pulse1 .measuring) {k : Nat} (hk : s.tmr1.counter.toNat + k < 65536) :
    tickTimer1^[k] s = s.withTmr1 { s.tmr1 with counter := s.tmr1.counter + BitVec.ofNat 16 k } := by
  rw [← countTimer1_iterate hk]
  induction k with
  | zero => rfl
  | succ k ih =>
    rw [Function.iterate_succ_apply', Function.iterate_succ_apply', ih (by omega), countTimer1_iterate (by omega)]
    exact (h.withCounter _).tick_measuring

theorem systemCycle_of_halted (h : s.mode = .halted) : systemCycle s = s := by simp [systemCycle, h]

end

/-- Settles O50: a timer clock in each phase of the measurement. -/
theorem pulseWidthMeasurement : Obligations.PulseWidthMeasurement := by
  refine ⟨fun s hon hmode => ⟨fun hp => ?idle0, fun hp => ⟨_, rfl, ?start0⟩, fun k hp hk => ?within0, fun hp => ?count0,
      fun hp => ⟨_, rfl, ?stop0⟩⟩,
    fun s hon hmode => ⟨fun hp => ?idle1, fun hp => ⟨_, rfl, ?start1⟩, fun k hp hk => ?within1, fun hp => ?count1,
      fun hp => ⟨_, rfl, ?stop1⟩⟩, fun s => systemCycle_of_halted⟩
  case idle0 => exact State.Pulse0.tick_idle ⟨hon, hmode, hp⟩
  case start0 => simpa [PulsePhase.staysOn, PulsePhase.next, ← hon] using State.Pulse0.tick ⟨hon, hmode, hp⟩
  case within0 => exact State.Pulse0.tick_iterate ⟨hon, hmode, hp⟩ hk
  case count0 => exact State.Pulse0.tick_measuring ⟨hon, hmode, hp⟩
  case stop0 =>
    simp only [List.mem_cons, List.not_mem_nil, or_false] at hp
    rcases hp with hp | hp <;> exact State.Pulse0.tick ⟨hon, hmode, hp⟩
  case idle1 => exact State.Pulse1.tick_idle ⟨hon, hmode, hp⟩
  case start1 => simpa [PulsePhase.staysOn, PulsePhase.next, ← hon] using State.Pulse1.tick ⟨hon, hmode, hp⟩
  case within1 => exact State.Pulse1.tick_iterate ⟨hon, hmode, hp⟩ hk
  case count1 => exact State.Pulse1.tick_measuring ⟨hon, hmode, hp⟩
  case stop1 =>
    simp only [List.mem_cons, List.not_mem_nil, or_false] at hp
    rcases hp with hp | hp <;> exact State.Pulse1.tick ⟨hon, hmode, hp⟩

end Sys2Proof.Machine
end

section
/-! SUPPORT. The transitions of the timers' pins and of the counted signal (60_exceptions.md R347 to R349, R354; R436): what the
detectors leave of each timer, and the clock that sees an event. -/

namespace Sys2Proof.Machine

/-! ## A count, as the claims say it -/

section
variable (s : State)

theorem counted0_countTimer0 : Counted0 s.tmr0 (countTimer0 s).tmr0 s.intc.t0f (countTimer0 s).intc.t0f := by
  refine ⟨fun h => ?next, fun h => ?overflow⟩
  case next =>
    rw [show countTimer0 s = s.withTmr0 { s.tmr0 with counter := s.tmr0.counter + 1 } from if_neg h]
    exact ⟨rfl, rfl⟩
  case overflow =>
    rw [countTimer0_tmr0_of_overflow h, countTimer0_intc_of_overflow h]
    exact ⟨rfl, rfl⟩

theorem counted1_countTimer1 : Counted1 s.tmr1 (countTimer1 s).tmr1 s.intc.t1f (countTimer1 s).intc.t1f := by
  refine ⟨fun h => ?next, fun h => ?overflow⟩
  case next =>
    rw [show countTimer1 s = s.withTmr1 { s.tmr1 with counter := s.tmr1.counter + 1 } from if_neg h]
    exact ⟨rfl, rfl⟩
  case overflow =>
    rw [countTimer1_tmr1_of_overflow h, countTimer1_intc_of_overflow h]
    exact ⟨rfl, rfl⟩

variable {s} {before after : Timer0} {before1 after1 : Timer1} {q r : Bool}

/-- A count has no part in what waits for a clock and in the prescaler. -/
theorem Counted0.withEvent (h : Counted0 before after q r) (e : Bool) :
    Counted0 { before with event := e } { after with event := e } q r :=
  ⟨fun hne => (h.1 hne).imp (fun heq => by rw [heq]) id, fun hmax => (h.2 hmax).imp (fun heq => by rw [heq]) id⟩

theorem Counted0.withPrescaler (h : Counted0 before after q r) (p : BitVec 7) :
    Counted0 { before with prescaler := p } { after with prescaler := p } q r :=
  ⟨fun hne => (h.1 hne).imp (fun heq => by rw [heq]) id, fun hmax => (h.2 hmax).imp (fun heq => by rw [heq]) id⟩

theorem Counted1.withEvent (h : Counted1 before1 after1 q r) (e : Bool) :
    Counted1 { before1 with event := e } { after1 with event := e } q r :=
  ⟨fun hne => (h.1 hne).imp (fun heq => by rw [heq]) id, fun hmax => (h.2 hmax).imp (fun heq => by rw [heq]) id⟩

end

/-! ## The sight of an event -/

section
variable {s : State}

theorem seeEvent0_of_none (h : (s.tmr0.on && s.tmr0.mode == modeEventCount && s.tmr0.event) = false) : seeEvent0 s = s := by
  simp only [seeEvent0, h, Bool.false_eq_true, if_false]

theorem seeEvent1_of_none (h : (s.tmr1.on && s.tmr1.mode == modeEventCount && s.tmr1.event) = false) : seeEvent1 s = s := by
  simp only [seeEvent1, h, Bool.false_eq_true, if_false]

theorem seeEvent0_of_event (hon : s.tmr0.on = true) (hmode : s.tmr0.mode = modeEventCount) (he : s.tmr0.event = true) :
    seeEvent0 s = countTimer0 (s.withTmr0 { s.tmr0 with event := false }) := by
  simp [seeEvent0, hon, hmode, he]

theorem seeEvent1_of_event (hon : s.tmr1.on = true) (hmode : s.tmr1.mode = modeEventCount) (he : s.tmr1.event = true) :
    seeEvent1 s = countTimer1 (s.withTmr1 { s.tmr1 with event := false }) := by
  simp [seeEvent1, hon, hmode, he]

end

/-! ## A transition of the pin, in each mode -/

section
variable {s : State} {clocked rising : Bool}

/-- The edge TnE does not select does nothing in event count mode (R347). -/
theorem transitionTimer0_of_edge_eq (hmode : s.tmr0.mode = modeEventCount) (hedge : rising = s.tmr0.edge) :
    transitionTimer0 clocked rising s = s := by
  simp [transitionTimer0, hmode, hedge]

theorem transitionTimer1_of_edge_eq (hmode : s.tmr1.mode = modeEventCount) (hedge : rising = s.tmr1.edge) :
    transitionTimer1 clocked rising s = s := by
  simp [transitionTimer1, hmode, hedge]

theorem transitionTimer0_of_edge_ne (hon : s.tmr0.on = true) (hmode : s.tmr0.mode = modeEventCount)
    (hedge : rising ≠ s.tmr0.edge) : transitionTimer0 clocked rising s = eventTimer0 clocked s := by
  simp [transitionTimer0, hon, hmode, hedge]

theorem transitionTimer1_of_edge_ne (hon : s.tmr1.on = true) (hmode : s.tmr1.mode = modeEventCount)
    (hedge : rising ≠ s.tmr1.edge) : transitionTimer1 clocked rising s = eventTimer1 clocked s := by
  simp [transitionTimer1, hon, hmode, hedge]

/-- In pulse width mode a transition moves the measurement on (R349). -/
theorem transitionTimer0_pulseWidth (hon : s.tmr0.on = true) (hmode : s.tmr0.mode = modePulseWidth) :
    transitionTimer0 clocked rising s
      = s.withTmr0 { s.tmr0 with pulse := s.tmr0.pulse.onEdge (rising == s.tmr0.edge) } := by
  simp +decide [transitionTimer0, hon, hmode]

theorem transitionTimer1_pulseWidth (hon : s.tmr1.on = true) (hmode : s.tmr1.mode = modePulseWidth) :
    transitionTimer1 clocked rising s
      = s.withTmr1 { s.tmr1 with pulse := s.tmr1.pulse.onEdge (rising == s.tmr1.edge) } := by
  simp +decide [transitionTimer1, hon, hmode]

/-- In mode 00 the pin is not Timer 0's input (R348). -/
theorem transitionTimer0_counterSource (hmode : s.tmr0.mode = modeCounterSource) : transitionTimer0 clocked rising s = s := by
  simp +decide [transitionTimer0, hmode]

/-- A transition keeps Timer 0's mode. -/
theorem transitionTimer0_mode (s : State) : (transitionTimer0 clocked rising s).tmr0.mode = s.tmr0.mode := by
  rcases transitionTimer0_cases s clocked rising with h | ⟨-, -, h⟩ | ⟨-, -, h⟩ <;> rw [h]
  · unfold eventTimer0
    dsimp only
    split
    · exact (seeEvent0_control s).2
    · rw [countTimer0_tmr0]
      exact (seeEvent0_control s).2
  · rfl

/-! ## An event -/

/-- An event that finds none waiting waits for the timer clock (R436). -/
theorem eventTimer0_view0_of_none (he : s.tmr0.event = false) :
    (eventTimer0 true s).view0 = ({ s.tmr0 with event := true }, s.intc.t0f) := by
  rw [eventTimer0, seeEvent0_of_none (by simp [he])]
  rfl

theorem eventTimer1_view1_of_none (he : s.tmr1.event = false) :
    (eventTimer1 true s).view1 = ({ s.tmr1 with event := true }, s.intc.t1f) := by
  rw [eventTimer1, seeEvent1_of_none (by simp [he])]
  rfl

/-- An event that finds one waiting counts that one and waits (log 54). -/
theorem counted0_eventTimer0_clocked (hon : s.tmr0.on = true) (hmode : s.tmr0.mode = modeEventCount)
    (he : s.tmr0.event = true) :
    Counted0 s.tmr0 (eventTimer0 true s).tmr0 s.intc.t0f (eventTimer0 true s).intc.t0f := by
  rw [eventTimer0, seeEvent0_of_event hon hmode he]
  have hcount := (counted0_countTimer0 (s.withTmr0 { s.tmr0 with event := false })).withEvent true
  have hsame : { s.tmr0 with event := true } = s.tmr0 := by rw [← he]
  rwa [State.withTmr0_tmr0, hsame] at hcount

theorem counted1_eventTimer1_clocked (hon : s.tmr1.on = true) (hmode : s.tmr1.mode = modeEventCount)
    (he : s.tmr1.event = true) :
    Counted1 s.tmr1 (eventTimer1 true s).tmr1 s.intc.t1f (eventTimer1 true s).intc.t1f := by
  rw [eventTimer1, seeEvent1_of_event hon hmode he]
  have hcount := (counted1_countTimer1 (s.withTmr1 { s.tmr1 with event := false })).withEvent true
  have hsame : { s.tmr1 with event := true } = s.tmr1 := by rw [← he]
  rwa [State.withTmr1_tmr1, hsame] at hcount

/-- In HALT an event that finds none waiting counts at once (R347). -/
theorem counted0_eventTimer0_halted (he : s.tmr0.event = false) :
    Counted0 s.tmr0 (eventTimer0 false s).tmr0 s.intc.t0f (eventTimer0 false s).intc.t0f := by
  rw [eventTimer0, seeEvent0_of_none (by simp [he])]
  exact counted0_countTimer0 s

theorem counted1_eventTimer1_halted (he : s.tmr1.event = false) :
    Counted1 s.tmr1 (eventTimer1 false s).tmr1 s.intc.t1f (eventTimer1 false s).intc.t1f := by
  rw [eventTimer1, seeEvent1_of_none (by simp [he])]
  exact counted1_countTimer1 s

/-- In HALT an event that finds one waiting makes two counts (log 54). -/
theorem counted0_eventTimer0_halted_twice (hon : s.tmr0.on = true) (hmode : s.tmr0.mode = modeEventCount)
    (he : s.tmr0.event = true) : ∃ t f, Counted0 { s.tmr0 with event := false } t s.intc.t0f f
      ∧ Counted0 t (eventTimer0 false s).tmr0 f (eventTimer0 false s).intc.t0f := by
  rw [eventTimer0, seeEvent0_of_event hon hmode he]
  exact ⟨_, _, counted0_countTimer0 (s.withTmr0 { s.tmr0 with event := false }), counted0_countTimer0 _⟩

theorem counted1_eventTimer1_halted_twice (hon : s.tmr1.on = true) (hmode : s.tmr1.mode = modeEventCount)
    (he : s.tmr1.event = true) : ∃ t f, Counted1 { s.tmr1 with event := false } t s.intc.t1f f
      ∧ Counted1 t (eventTimer1 false s).tmr1 f (eventTimer1 false s).intc.t1f := by
  rw [eventTimer1, seeEvent1_of_event hon hmode he]
  exact ⟨_, _, counted1_countTimer1 (s.withTmr1 { s.tmr1 with event := false }), counted1_countTimer1 _⟩

end

/-! ## The look at the inputs -/

section
variable {s : State}

/-- Unless Timer 0 counts the other signal, a look at a changed PA1 is a transition of TMR0 for it. -/
theorem exists_transitionTimer0_of_sense (hmode : s.tmr0.mode ≠ modeCounterSource)
    (hchange : getBit (paLevel s) 1 ≠ getBit s.seen.pa 1) :
    ∃ u, u.view0 = s.view0
      ∧ (sense s).view0 = (transitionTimer0 (s.mode == .running) (getBit (paLevel s) 1) u).view0 := by
  have htmr0 : (detectInt s).tmr0 = s.tmr0 := congrArg Prod.fst (detectInt_view0 s)
  have hlater : (detectComparator s).tmr0 = (detectTmr0 s).tmr0 := congrArg Prod.fst (detectComparator_view0 s)
  have hdetect : detectTmr0 s = transitionTimer0 (s.mode == .running) (getBit (paLevel s) 1) (detectInt s) :=
    onChange_of_ne hchange
  have hidle : transitionCountSource s.pins.cntSrc (detectComparator s) = detectComparator s := by
    simp [transitionCountSource, hlater, hdetect, transitionTimer0_mode, htmr0, hmode]
  refine ⟨detectInt s, detectInt_view0 s, ?_⟩
  calc (sense s).view0 = (detectCountSource s).view0 := sense_view0 s
    _ = (detectComparator s).view0 := onChange_keeps (congrArg State.view0 hidle)
    _ = (detectTmr0 s).view0 := detectComparator_view0 s
    _ = _ := by rw [hdetect]

/-- A look at a changed PB1 is a transition of TMR1 for Timer 1. -/
theorem exists_transitionTimer1_of_sense (hchange : getBit (pbLevel s) 1 ≠ s.seen.pb1) :
    ∃ u, u.view1 = s.view1
      ∧ (sense s).view1 = (transitionTimer1 (s.mode == .running) (getBit (pbLevel s) 1) u).view1 :=
  ⟨detectTmr0 s, detectTmr0_view1 s, (sense_view1 s).trans (congrArg State.view1 (onChange_of_ne hchange))⟩

/-- In mode 00 a look at a changed counted signal is a transition of it for Timer 0. -/
theorem exists_transitionCountSource_of_sense (hmode : s.tmr0.mode = modeCounterSource)
    (hchange : s.pins.cntSrc ≠ s.seen.cnt) :
    ∃ u, u.view0 = s.view0 ∧ (sense s).view0 = (transitionCountSource s.pins.cntSrc u).view0 := by
  have htmr0 : (detectInt s).tmr0 = s.tmr0 := congrArg Prod.fst (detectInt_view0 s)
  have hidle : (transitionTimer0 (s.mode == .running) (getBit (paLevel s) 1) (detectInt s)) = detectInt s :=
    transitionTimer0_counterSource (by rw [htmr0, hmode])
  refine ⟨detectComparator s, ?_, (sense_view0 s).trans (congrArg State.view0 (onChange_of_ne hchange))⟩
  calc (detectComparator s).view0 = (detectTmr0 s).view0 := detectComparator_view0 s
    _ = (detectInt s).view0 := onChange_keeps (congrArg State.view0 hidle)
    _ = s.view0 := detectInt_view0 s

/-- R347 at the pin of Timer 0: the edge T0E does not select, and the one it does. -/
theorem sense_tmr0_eventCount (hon : s.tmr0.on = true) (hmode : s.tmr0.mode = modeEventCount)
    (hchange : getBit (paLevel s) 1 ≠ getBit s.seen.pa 1) :
    (getBit (paLevel s) 1 = s.tmr0.edge → (sense s).tmr0 = s.tmr0)
    ∧ (getBit (paLevel s) 1 ≠ s.tmr0.edge →
      (s.mode = .running → s.tmr0.event = false →
        (sense s).tmr0 = { s.tmr0 with event := true } ∧ (sense s).intc.t0f = s.intc.t0f)
      ∧ (s.mode = .running → s.tmr0.event = true → Counted0 s.tmr0 (sense s).tmr0 s.intc.t0f (sense s).intc.t0f)
      ∧ (s.mode = .halted → s.tmr0.event = false → Counted0 s.tmr0 (sense s).tmr0 s.intc.t0f (sense s).intc.t0f)
      ∧ (s.mode = .halted → s.tmr0.event = true → ∃ t f,
        Counted0 { s.tmr0 with event := false } t s.intc.t0f f
        ∧ Counted0 t (sense s).tmr0 f (sense s).intc.t0f)) := by
  obtain ⟨u, hu, hsense⟩ := exists_transitionTimer0_of_sense (by rw [hmode]; decide) hchange
  simp only [State.view0, Prod.mk.injEq] at hu hsense
  obtain ⟨htmr, hflag⟩ := hu
  rw [hsense.1, hsense.2, ← htmr, ← hflag]
  rw [← htmr] at hon hmode
  refine ⟨fun hedge => by rw [transitionTimer0_of_edge_eq hmode hedge], fun hedge => ?_⟩
  rw [transitionTimer0_of_edge_ne hon hmode hedge]
  refine ⟨fun hrun he => ?waits, fun hrun he => ?counts, fun hhalt he => ?atOnce, fun hhalt he => ?twice⟩
  case waits => rw [hrun]; exact Prod.mk.inj (eventTimer0_view0_of_none he)
  case counts => rw [hrun]; exact counted0_eventTimer0_clocked hon hmode he
  case atOnce => rw [hhalt]; exact counted0_eventTimer0_halted he
  case twice => rw [hhalt]; exact counted0_eventTimer0_halted_twice hon hmode he

theorem sense_tmr1_eventCount (hon : s.tmr1.on = true) (hmode : s.tmr1.mode = modeEventCount)
    (hchange : getBit (pbLevel s) 1 ≠ s.seen.pb1) :
    (getBit (pbLevel s) 1 = s.tmr1.edge → (sense s).tmr1 = s.tmr1)
    ∧ (getBit (pbLevel s) 1 ≠ s.tmr1.edge →
      (s.mode = .running → s.tmr1.event = false →
        (sense s).tmr1 = { s.tmr1 with event := true } ∧ (sense s).intc.t1f = s.intc.t1f)
      ∧ (s.mode = .running → s.tmr1.event = true → Counted1 s.tmr1 (sense s).tmr1 s.intc.t1f (sense s).intc.t1f)
      ∧ (s.mode = .halted → s.tmr1.event = false → Counted1 s.tmr1 (sense s).tmr1 s.intc.t1f (sense s).intc.t1f)
      ∧ (s.mode = .halted → s.tmr1.event = true → ∃ t f,
        Counted1 { s.tmr1 with event := false } t s.intc.t1f f
        ∧ Counted1 t (sense s).tmr1 f (sense s).intc.t1f)) := by
  obtain ⟨u, hu, hsense⟩ := exists_transitionTimer1_of_sense hchange
  simp only [State.view1, Prod.mk.injEq] at hu hsense
  obtain ⟨htmr, hflag⟩ := hu
  rw [hsense.1, hsense.2, ← htmr, ← hflag]
  rw [← htmr] at hon hmode
  refine ⟨fun hedge => by rw [transitionTimer1_of_edge_eq hmode hedge], fun hedge => ?_⟩
  rw [transitionTimer1_of_edge_ne hon hmode hedge]
  refine ⟨fun hrun he => ?waits, fun hrun he => ?counts, fun hhalt he => ?atOnce, fun hhalt he => ?twice⟩
  case waits => rw [hrun]; exact Prod.mk.inj (eventTimer1_view1_of_none he)
  case counts => rw [hrun]; exact counted1_eventTimer1_clocked hon hmode he
  case atOnce => rw [hhalt]; exact counted1_eventTimer1_halted he
  case twice => rw [hhalt]; exact counted1_eventTimer1_halted_twice hon hmode he

/-- R349 at the pin of Timer 0: a transition moves the measurement on. -/
theorem sense_tmr0_pulseWidth (hon : s.tmr0.on = true) (hmode : s.tmr0.mode = modePulseWidth)
    (hchange : getBit (paLevel s) 1 ≠ getBit s.seen.pa 1) :
    (sense s).tmr0 = { s.tmr0 with pulse := s.tmr0.pulse.onEdge (getBit (paLevel s) 1 == s.tmr0.edge) } := by
  obtain ⟨u, hu, hsense⟩ := exists_transitionTimer0_of_sense (by rw [hmode]; decide) hchange
  have htmr : u.tmr0 = s.tmr0 := congrArg Prod.fst hu
  have hsense : (sense s).tmr0 = (transitionTimer0 _ _ u).tmr0 := congrArg Prod.fst hsense
  rw [← htmr] at hon hmode ⊢
  rw [hsense, transitionTimer0_pulseWidth hon hmode]
  rfl

theorem sense_tmr1_pulseWidth (hon : s.tmr1.on = true) (hmode : s.tmr1.mode = modePulseWidth)
    (hchange : getBit (pbLevel s) 1 ≠ s.seen.pb1) :
    (sense s).tmr1 = { s.tmr1 with pulse := s.tmr1.pulse.onEdge (getBit (pbLevel s) 1 == s.tmr1.edge) } := by
  obtain ⟨u, hu, hsense⟩ := exists_transitionTimer1_of_sense hchange
  have htmr : u.tmr1 = s.tmr1 := congrArg Prod.fst hu
  have hsense : (sense s).tmr1 = (transitionTimer1 _ _ u).tmr1 := congrArg Prod.fst hsense
  rw [← htmr] at hon hmode ⊢
  rw [hsense, transitionTimer1_pulseWidth hon hmode]
  rfl

/-- What a start transition does to the measurement. -/
theorem onEdge_start_of_ne {p : PulsePhase} (h : p ≠ .idle) : p.onEdge true = p := by
  cases p with
  | idle => exact absurd rfl h
  | _ => rfl

/-- What an end transition does to the measurement, where none is to be ended. -/
theorem onEdge_end_of_not_mem {p : PulsePhase} (h : p ∉ [PulsePhase.starting, .measuring]) : p.onEdge false = p := by
  cases p with
  | starting | measuring => simp at h
  | _ => rfl

/-- R348: the edge T0E does not select, and the one it does. -/
theorem sense_tmr0_counterSource (hon : s.tmr0.on = true) (hmode : s.tmr0.mode = modeCounterSource)
    (hchange : s.pins.cntSrc ≠ s.seen.cnt) :
    (s.pins.cntSrc = s.tmr0.edge → (sense s).tmr0 = s.tmr0)
    ∧ (s.pins.cntSrc ≠ s.tmr0.edge → Counted0 s.tmr0 (sense s).tmr0 s.intc.t0f (sense s).intc.t0f) := by
  obtain ⟨u, hu, hsense⟩ := exists_transitionCountSource_of_sense hmode hchange
  simp only [State.view0, Prod.mk.injEq] at hu hsense
  obtain ⟨htmr, hflag⟩ := hu
  rw [hsense.1, hsense.2, ← htmr, ← hflag]
  rw [← htmr] at hon hmode
  refine ⟨fun hedge => ?_, fun hedge => ?_⟩
  · rw [transitionCountSource, hedge]
    simp
  · rw [transitionCountSource, if_pos (by simp [hon, hmode, hedge])]
    exact counted0_countTimer0 u

end

/-! ## The clock that sees an event -/

section
variable {s : State}

/-- In event count mode the timer's own clock does nothing. -/
theorem tickTimer0_eventCount (hmode : s.tmr0.mode = modeEventCount) : tickTimer0 s = s := by
  simp +decide [tickTimer0, hmode]

theorem tickTimer1_eventCount (hmode : s.tmr1.mode = modeEventCount) : tickTimer1 s = s := by
  simp +decide [tickTimer1, hmode]

/-- The prescaler's own count (R342). -/
def advancePrescaler (s : State) : State := s.withTmr0 { s.tmr0 with prescaler := s.tmr0.prescaler + 1 }

/-- A system clock at Timer 0: the sight of an event, the prescaler's count, and every 2^PSC of them a timer clock. -/
theorem systemClockTimer0_eq (s : State) : systemClockTimer0 s =
    if (advancePrescaler (seeEvent0 s)).tmr0.prescaler.toNat % 2 ^ (advancePrescaler (seeEvent0 s)).tmr0.psc.toNat == 0
    then tickTimer0 (advancePrescaler (seeEvent0 s)) else advancePrescaler (seeEvent0 s) := rfl

/-- In event count mode a system clock sees an event and advances the prescaler, whatever its ratio (R341). -/
theorem systemClock_eventCount (hmode : s.tmr0.mode = modeEventCount) :
    systemClock s = advancePrescaler (seeEvent0 (s.withOscDivider (s.oscDivider + 1))) := by
  have hsame : (advancePrescaler (seeEvent0 (s.withOscDivider (s.oscDivider + 1)))).tmr0.mode = modeEventCount :=
    (seeEvent0_control _).2.trans hmode
  rw [systemClock, systemClockTimer0_eq, tickTimer0_eventCount hsame, ite_self]

theorem countTimer0_prescaler (s : State) : (countTimer0 s).tmr0.prescaler = s.tmr0.prescaler := by
  rw [countTimer0_tmr0]

theorem systemClock_tmr0_of_none (hmode : s.tmr0.mode = modeEventCount) (he : s.tmr0.event = false) :
    (systemClock s).tmr0 = { s.tmr0 with prescaler := s.tmr0.prescaler + 1 } := by
  rw [systemClock_eventCount hmode, seeEvent0_of_none (by simp [he])]
  rfl

theorem counted0_systemClock_of_event (hon : s.tmr0.on = true) (hmode : s.tmr0.mode = modeEventCount)
    (he : s.tmr0.event = true) :
    Counted0 { s.tmr0 with event := false, prescaler := s.tmr0.prescaler + 1 } (systemClock s).tmr0
      s.intc.t0f (systemClock s).intc.t0f := by
  have hcount := (counted0_countTimer0 ((s.withOscDivider (s.oscDivider + 1)).withTmr0
    { s.tmr0 with event := false })).withPrescaler (s.tmr0.prescaler + 1)
  rw [systemClock_eventCount hmode, seeEvent0_of_event (s := s.withOscDivider (s.oscDivider + 1)) hon hmode he,
    advancePrescaler, countTimer0_prescaler]
  exact hcount

theorem cycleTimer1_of_none (hmode : s.tmr1.mode = modeEventCount) (he : s.tmr1.event = false) : cycleTimer1 s = s := by
  rw [cycleTimer1, seeEvent1_of_none (by simp [he]), tickTimer1_eventCount hmode]

theorem counted1_cycleTimer1_of_event (hon : s.tmr1.on = true) (hmode : s.tmr1.mode = modeEventCount)
    (he : s.tmr1.event = true) :
    Counted1 { s.tmr1 with event := false } (cycleTimer1 s).tmr1 s.intc.t1f (cycleTimer1 s).intc.t1f := by
  have hsame : (seeEvent1 s).tmr1.mode = modeEventCount := (seeEvent1_control s).2.trans hmode
  rw [cycleTimer1, tickTimer1_eventCount hsame, seeEvent1_of_event hon hmode he]
  exact counted1_countTimer1 (s.withTmr1 { s.tmr1 with event := false })

end

/-- Settles O49: the pins mode by mode, the clocks that see an event, and the counted signal. -/
theorem timerPinEdges : Obligations.TimerPinEdges := by
  refine ⟨fun s hon hchange => ⟨fun hm he => ?_, fun hm he => ?_, fun hm he => ?_, fun hm he => ?_⟩,
    fun s hon hchange => ⟨fun hm he => ?_, fun hm he => ?_, fun hm he => ?_, fun hm he => ?_⟩,
    fun s hon hm => ⟨systemClock_tmr0_of_none hm, counted0_systemClock_of_event hon hm⟩,
    fun s hon hm => ⟨cycleTimer1_of_none hm, counted1_cycleTimer1_of_event hon hm⟩,
    fun s hon hm hchange => sense_tmr0_counterSource hon hm hchange⟩
  · exact (sense_tmr0_eventCount hon hm hchange).1 he
  · exact (sense_tmr0_eventCount hon hm hchange).2 he
  · rw [sense_tmr0_pulseWidth hon hm hchange, he, beq_self_eq_true]
    exact ⟨fun hp => by rw [hp]; rfl, fun hp => by rw [onEdge_start_of_ne hp]⟩
  · rw [sense_tmr0_pulseWidth hon hm hchange, beq_false_of_ne he]
    exact ⟨fun hp => by rw [hp]; rfl, fun hp => by rw [hp]; rfl, fun hp => by rw [onEdge_end_of_not_mem hp]⟩
  · exact (sense_tmr1_eventCount hon hm hchange).1 he
  · exact (sense_tmr1_eventCount hon hm hchange).2 he
  · rw [sense_tmr1_pulseWidth hon hm hchange, he, beq_self_eq_true]
    exact ⟨fun hp => by rw [hp]; rfl, fun hp => by rw [onEdge_start_of_ne hp]⟩
  · rw [sense_tmr1_pulseWidth hon hm hchange, beq_false_of_ne he]
    exact ⟨fun hp => by rw [hp]; rfl, fun hp => by rw [hp]; rfl, fun hp => by rw [onEdge_end_of_not_mem hp]⟩

end Sys2Proof.Machine
end

section
/-! SUPPORT. The watchdog's period (60_exceptions.md R362). -/

namespace Sys2Proof.Machine

section
variable {s : State} {n : Nat}

/-- A clock before the counter's last one moves the counter alone. -/
theorem clockWdt_of_count_ne (hen : s.cfg.opt.wdtEnabled = true) (hcount : s.wdt.count + 1 ≠ 0#8) :
    clockWdt s = s.withWdt { s.wdt with count := s.wdt.count + 1 } := by
  rw [clockWdt, if_neg (by simp [hen])]
  exact if_neg hcount

/-- The counter's last clock carries into the prescaler (R362). -/
theorem clockWdt_of_carry (hen : s.cfg.opt.wdtEnabled = true) (hcount : s.wdt.count + 1 = 0#8) :
    let t := s.withWdt { s.wdt with count := s.wdt.count + 1, prescaler := s.wdt.prescaler + 1 }
    clockWdt s = if (s.wdt.prescaler + 1).toNat % 2 ^ (s.wdts.toNat % 8) = 0 then wdtReset t else t := by
  have hratio : (s.wdts.extractLsb' 0 3).toNat = s.wdts.toNat % 8 := by
    rw [BitVec.extractLsb'_toNat, Nat.shiftRight_zero]
  rw [clockWdt, if_neg (by simp [hen]), ← hratio]
  exact if_pos hcount

/-- The watchdog `n` clocks after its clear. -/
def Watchdog.clocked (w : Watchdog) (n : Nat) : Watchdog :=
  { w with count := BitVec.ofNat 8 n, prescaler := BitVec.ofNat 7 (n / 256) }

theorem ofNat_add_one (w n : Nat) : BitVec.ofNat w n + 1 = BitVec.ofNat w (n + 1) := (BitVec.ofNat_add n 1).symm

theorem ofNat_add_one_eq_zero_iff {w : Nat} : BitVec.ofNat w n + 1 = 0#w ↔ (n + 1) % 2 ^ w = 0 := by
  rw [ofNat_add_one, BitVec.toNat_eq, BitVec.toNat_ofNat, BitVec.toNat_ofNat, Nat.zero_mod]

/-- The seven bits of a prescaler hold a multiple of every ratio. -/
theorem mod_prescaler_mod (n : Nat) {k : Nat} (hk : k ≤ 7) : n % 128 % 2 ^ k = n % 2 ^ k :=
  Nat.mod_mod_of_dvd n (Nat.pow_dvd_pow 2 hk)

/-- A clock that does not carry. -/
theorem clockWdt_clocked_of_count (hen : s.cfg.opt.wdtEnabled = true) (hn : (n + 1) % 256 ≠ 0) :
    clockWdt (s.withWdt (s.wdt.clocked n)) = s.withWdt (s.wdt.clocked (n + 1)) := by
  have hsame : (n + 1) / 256 = n / 256 := by omega
  rw [clockWdt_of_count_ne (by exact hen) (by exact mt ofNat_add_one_eq_zero_iff.mp hn), Watchdog.clocked, Watchdog.clocked,
    hsame, ← ofNat_add_one]
  rfl

/-- A clock that carries makes a time-out where the carries reach a multiple of 2^WS. -/
theorem clockWdt_clocked_of_carry (hen : s.cfg.opt.wdtEnabled = true) (hn : (n + 1) % 256 = 0) :
    clockWdt (s.withWdt (s.wdt.clocked n)) =
      if (n + 1) / 256 % 2 ^ (s.wdts.toNat % 8) = 0 then wdtReset (s.withWdt (s.wdt.clocked (n + 1)))
      else s.withWdt (s.wdt.clocked (n + 1)) := by
  have hnext : (n + 1) / 256 = n / 256 + 1 := by omega
  have hclocked : s.wdt.clocked (n + 1)
      = { s.wdt.clocked n with count := BitVec.ofNat 8 n + 1, prescaler := BitVec.ofNat 7 (n / 256) + 1 } := by
    rw [Watchdog.clocked, hnext, ← ofNat_add_one, ← ofNat_add_one]
    rfl
  have hprescaler : (BitVec.ofNat 7 (n / 256) + 1).toNat = (n + 1) / 256 % 128 := by
    rw [hnext, ofNat_add_one, BitVec.toNat_ofNat]
  rw [clockWdt_of_carry (by exact hen) (by exact ofNat_add_one_eq_zero_iff.mpr hn), hclocked,
    ← mod_prescaler_mod _ (show s.wdts.toNat % 8 ≤ 7 by omega), ← hprescaler]
  rfl

/-- Before the period is over only the counter and the prescaler move. -/
theorem clockWdt_iterate (hen : s.cfg.opt.wdtEnabled = true) (hcount : s.wdt.count = 0) (hprescaler : s.wdt.prescaler = 0)
    (hn : n < 256 * 2 ^ (s.wdts.toNat % 8)) : clockWdt^[n] s = s.withWdt (s.wdt.clocked n) := by
  induction n with
  | zero =>
    have hsame : s.wdt.clocked 0 = s.wdt := by
      rw [Watchdog.clocked, show BitVec.ofNat 8 0 = s.wdt.count from hcount.symm,
        show BitVec.ofNat 7 (0 / 256) = s.wdt.prescaler from hprescaler.symm]
    rw [hsame]
    rfl
  | succ n ih =>
    rw [Function.iterate_succ_apply', ih (by omega)]
    by_cases hcarry : (n + 1) % 256 = 0
    · have hnot : ¬(n + 1) / 256 % 2 ^ (s.wdts.toNat % 8) = 0 := by
        rw [Nat.mod_eq_of_lt (by omega)]
        omega
      rw [clockWdt_clocked_of_carry hen hcarry, if_neg hnot]
    · exact clockWdt_clocked_of_count hen hcarry

end

/-- Settles O52: the clocks before the last one, and the last one, which carries for the 2^WS-th time. -/
theorem watchdogPeriod : Obligations.WatchdogPeriod := by
  refine fun s n hen hcount hprescaler => ⟨clockWdt_iterate hen hcount hprescaler, fun hn => ?timeOut⟩
  have hpos : 0 < 2 ^ (s.wdts.toNat % 8) := Nat.two_pow_pos _
  obtain ⟨n, rfl⟩ : ∃ k, n = k + 1 := ⟨n - 1, by omega⟩
  have htimeOut : (n + 1) / 256 % 2 ^ (s.wdts.toNat % 8) = 0 := by
    rw [show (n + 1) / 256 = 2 ^ (s.wdts.toNat % 8) by omega, Nat.mod_self]
  rw [Function.iterate_succ_apply', clockWdt_iterate hen hcount hprescaler (by omega),
    clockWdt_clocked_of_carry hen (by omega), if_pos htimeOut]
  exact ⟨_, rfl⟩

end Sys2Proof.Machine
end

section
/-! SUPPORT. Timer 0's prescaler (60_exceptions.md R341, R342), and the agents' run in quiet surroundings: on a running core
(R351, R361, R410; D19) and on a halted one (R391). -/

namespace Sys2Proof.Machine

/-! ## Timer 0 over a number of system clocks, short of an overflow -/

section
variable {t : Timer0} {a b n : Nat}

/-- No measurement is under way and no event waits to be seen: the timer counts its own clock or nothing. -/
structure Timer0.Quiet (t : Timer0) : Prop where
  noPulse : t.on = true → t.mode ≠ modePulseWidth
  noEvent : (t.on && t.mode == modeEventCount && t.event) = false

/-- The counts in `n` system clocks: the multiples of 2^PSC among the prescaler's next `n` values (R342). -/
def Timer0.countsIn (t : Timer0) (n : Nat) : Nat :=
  if t.on = true ∧ t.mode = modeTimer then
    (t.prescaler.toNat + n) / 2 ^ t.psc.toNat - t.prescaler.toNat / 2 ^ t.psc.toNat
  else 0

/-- Timer 0 after `n` system clocks in which it does not overflow. -/
def Timer0.advanced (t : Timer0) (n : Nat) : Timer0 :=
  { t with counter := t.counter + BitVec.ofNat 8 (t.countsIn n), prescaler := t.prescaler + BitVec.ofNat 7 n }

theorem Timer0.Quiet.advanced (h : t.Quiet) (n : Nat) : (t.advanced n).Quiet := ⟨h.noPulse, h.noEvent⟩

theorem Timer0.countsIn_of_timer (h : t.on = true ∧ t.mode = modeTimer) : t.countsIn n =
    (t.prescaler.toNat + n) / 2 ^ t.psc.toNat - t.prescaler.toNat / 2 ^ t.psc.toNat :=
  if_pos h

theorem Timer0.countsIn_of_not_timer (h : ¬(t.on = true ∧ t.mode = modeTimer)) : t.countsIn n = 0 := if_neg h

theorem Timer0.countsIn_zero : t.countsIn 0 = 0 := by simp [Timer0.countsIn]

/-- Any 2^PSC system clocks hold one count, whatever the phase (R342). -/
theorem Timer0.countsIn_ratio (hon : t.on = true) (hmode : t.mode = modeTimer) : t.countsIn (2 ^ t.psc.toNat) = 1 := by
  rw [Timer0.countsIn_of_timer ⟨hon, hmode⟩, Nat.add_div_right _ (Nat.two_pow_pos _), Nat.add_sub_cancel_left]

/-- The multiples of a ratio do not depend on the prescaler's wrap. -/
theorem div_sub_div_of_mod (x b k : Nat) (hk : k ≤ 7) :
    (x % 128 + b) / 2 ^ k - x % 128 / 2 ^ k = (x + b) / 2 ^ k - x / 2 ^ k := by
  obtain ⟨c, hc⟩ : 2 ^ k ∣ 128 := Nat.pow_dvd_pow 2 hk
  have hx : x = x % 128 + 2 ^ k * (c * (x / 128)) := by rw [← Nat.mul_assoc, ← hc]; omega
  have hpos : 0 < 2 ^ k := Nat.two_pow_pos k
  conv_rhs => rw [hx, Nat.add_right_comm, Nat.add_mul_div_left _ _ hpos, Nat.add_mul_div_left _ _ hpos,
    Nat.add_sub_add_right]

theorem Timer0.countsIn_add : t.countsIn (a + b) = t.countsIn a + (t.advanced a).countsIn b := by
  by_cases hcount : t.on = true ∧ t.mode = modeTimer
  · have hpsc : t.psc.toNat ≤ 7 := Nat.le_of_lt_succ t.psc.isLt
    have hphase : (t.advanced a).prescaler.toNat = (t.prescaler.toNat + a) % 128 := by
      rw [Timer0.advanced, BitVec.toNat_add, BitVec.toNat_ofNat, Nat.add_mod_mod]
    have hfirst : t.prescaler.toNat / 2 ^ t.psc.toNat ≤ (t.prescaler.toNat + a) / 2 ^ t.psc.toNat :=
      Nat.div_le_div_right (Nat.le_add_right _ _)
    have hsecond : (t.prescaler.toNat + a) / 2 ^ t.psc.toNat ≤ (t.prescaler.toNat + a + b) / 2 ^ t.psc.toNat :=
      Nat.div_le_div_right (Nat.le_add_right _ _)
    rw [Timer0.countsIn_of_timer hcount, Timer0.countsIn_of_timer hcount,
      Timer0.countsIn_of_timer (t := t.advanced a) hcount, hphase, show (t.advanced a).psc = t.psc from rfl,
      div_sub_div_of_mod _ b _ hpsc, ← Nat.add_assoc]
    omega
  · rw [Timer0.countsIn_of_not_timer hcount, Timer0.countsIn_of_not_timer hcount,
      Timer0.countsIn_of_not_timer (t := t.advanced a) hcount]

theorem Timer0.advanced_zero : t.advanced 0 = t := by
  rw [Timer0.advanced, Timer0.countsIn_zero, BitVec.add_zero, BitVec.add_zero]

theorem Timer0.advanced_advanced : (t.advanced a).advanced b = t.advanced (a + b) := by
  conv_rhs => rw [Timer0.advanced, Timer0.countsIn_add, BitVec.ofNat_add, BitVec.ofNat_add, ← BitVec.add_assoc,
    ← BitVec.add_assoc]
  rfl

/-- A system clock is a count exactly where the prescaler reaches a multiple of its ratio. -/
theorem Timer0.countsIn_one : t.countsIn 1 =
    if (t.on = true ∧ t.mode = modeTimer) ∧ (t.prescaler + 1).toNat % 2 ^ t.psc.toNat = 0 then 1 else 0 := by
  have hpsc : t.psc.toNat ≤ 7 := Nat.le_of_lt_succ t.psc.isLt
  have hnext : (t.prescaler + 1).toNat % 2 ^ t.psc.toNat = (t.prescaler.toNat + 1) % 2 ^ t.psc.toNat := by
    rw [BitVec.toNat_add]
    exact mod_prescaler_mod _ hpsc
  unfold Timer0.countsIn
  rw [hnext, Nat.succ_div, Nat.add_sub_cancel_left]
  simp only [Nat.dvd_iff_mod_eq_zero]
  split <;> simp_all

end

section
variable {s : State} {n : Nat}

/-- A timer clock of a quiet Timer 0. -/
theorem tickTimer0_of_quiet (h : s.tmr0.Quiet) :
    tickTimer0 s = if s.tmr0.on = true ∧ s.tmr0.mode = modeTimer then countTimer0 s else s := by
  unfold tickTimer0
  by_cases hon : s.tmr0.on = true
  · simp [hon, h.noPulse hon]
  · simp [hon]

/-- A system clock of a quiet Timer 0 that does not overflow. -/
theorem systemClock_of_quiet (h : s.tmr0.Quiet) (hmax : s.tmr0.counter.toNat + s.tmr0.countsIn 1 ≤ 255) :
    systemClock s = (s.withTmr0 (s.tmr0.advanced 1)).withOscDivider (s.oscDivider + 1) := by
  have hsee : seeEvent0 (s.withOscDivider (s.oscDivider + 1)) = s.withOscDivider (s.oscDivider + 1) :=
    seeEvent0_of_none h.noEvent
  have htick := tickTimer0_of_quiet (s := advancePrescaler (s.withOscDivider (s.oscDivider + 1))) ⟨h.noPulse, h.noEvent⟩
  rw [systemClock, systemClockTimer0_eq, hsee, htick, Timer0.advanced]
  by_cases hratio : (s.tmr0.prescaler + 1).toNat % 2 ^ s.tmr0.psc.toNat = 0
  · rw [if_pos (by exact beq_iff_eq.mpr hratio)]
    by_cases hcount : s.tmr0.on = true ∧ s.tmr0.mode = modeTimer
    · have hone : s.tmr0.countsIn 1 = 1 := Timer0.countsIn_one.trans (if_pos ⟨hcount, hratio⟩)
      have hlt : s.tmr0.counter.toNat < 255 := by omega
      rw [if_pos (by exact hcount), countTimer0_of_lt (by exact hlt), hone]
      rfl
    · rw [if_neg (by exact hcount), Timer0.countsIn_of_not_timer hcount, BitVec.add_zero]
      rfl
  · have hnone : s.tmr0.countsIn 1 = 0 := Timer0.countsIn_one.trans (if_neg fun hboth => hratio hboth.2)
    rw [if_neg (by exact mt beq_iff_eq.mp hratio), hnone, BitVec.add_zero]
    rfl

theorem systemClock_iterate (h : s.tmr0.Quiet) (hmax : s.tmr0.counter.toNat + s.tmr0.countsIn n ≤ 255) :
    systemClock^[n] s = (s.withTmr0 (s.tmr0.advanced n)).withOscDivider (s.oscDivider + BitVec.ofNat 2 n) := by
  induction n with
  | zero => rw [Timer0.advanced_zero, BitVec.add_zero]; rfl
  | succ n ih =>
    rw [Timer0.countsIn_add] at hmax
    have hcounter : (s.tmr0.advanced n).counter.toNat = s.tmr0.counter.toNat + s.tmr0.countsIn n :=
      toNat_add_ofNat (by omega)
    rw [Function.iterate_succ_apply', ih (by omega), systemClock_of_quiet]
    · simp only [State.withOscDivider_tmr0, State.withTmr0_tmr0, Timer0.advanced_advanced]
      rw [← add_ofNat_succ]
      rfl
    · exact h.advanced n
    · change (s.tmr0.advanced n).counter.toNat + (s.tmr0.advanced n).countsIn 1 ≤ 255
      omega

/-- In event count mode the system clocks alone count nothing (R341). -/
theorem systemClock_iterate_eventCount (h : s.tmr0.Quiet) (hmode : s.tmr0.mode = modeEventCount) :
    (systemClock^[n] s).tmr0.counter = s.tmr0.counter := by
  have hnone : s.tmr0.countsIn n = 0 := Timer0.countsIn_of_not_timer fun htimer => by
    rw [hmode] at htimer
    exact absurd htimer.2 (by decide)
  have hlt := s.tmr0.counter.isLt
  rw [systemClock_iterate h (by omega)]
  change s.tmr0.counter + BitVec.ofNat 8 (s.tmr0.countsIn n) = s.tmr0.counter
  rw [hnone, BitVec.add_zero]

end

/-- Settles O47: 2^PSC clocks of a quiet timer hold one count in timer mode and none in event count mode; an event that
waits is counted by the first of them. -/
theorem prescalerRatio : Obligations.PrescalerRatio := by
  refine fun s hon => ⟨fun hmode hmax => ?timer, fun hmode => ⟨fun he => ?none, fun he hmax => ?event⟩⟩
  case timer =>
    have hquiet : s.tmr0.Quiet := ⟨fun _ => by rw [hmode]; decide, by rw [hmode]; simp +decide⟩
    have hone : s.tmr0.countsIn (2 ^ s.tmr0.psc.toNat) = 1 := Timer0.countsIn_ratio hon hmode
    rw [systemClock_iterate hquiet (by omega)]
    exact congrArg (fun k => s.tmr0.counter + BitVec.ofNat 8 k) hone
  case none =>
    have hquiet : s.tmr0.Quiet := ⟨fun _ => by rw [hmode]; decide, by simp [he]⟩
    exact systemClock_iterate_eventCount hquiet hmode
  case event =>
    obtain ⟨n, hn⟩ : ∃ k, 2 ^ s.tmr0.psc.toNat = k + 1 := ⟨_, (Nat.sub_add_cancel (Nat.two_pow_pos _)).symm⟩
    have hne : s.tmr0.counter ≠ 0xFF#8 := fun heq => by simp [heq] at hmax
    obtain ⟨hfirst, -⟩ := (counted0_systemClock_of_event hon hmode he).1 hne
    rw [hn, Function.iterate_succ_apply, systemClock_iterate_eventCount, hfirst]
    · exact ⟨fun _ => by rw [hfirst, hmode]; decide, by rw [hfirst]; simp⟩
    · rw [hfirst, hmode]

end Sys2Proof.Machine
end

section
/-! SUPPORT. The agents' run in quiet surroundings: on a running core (60_exceptions.md R351, R361, R410; D19) and on a halted
one (R391). -/

namespace Sys2Proof.Machine

/-! ## A look at settled inputs -/

section
variable {s : State}

theorem onChange_of_eq {now old : Bool} {act : State → State} {t : State} (h : now = old) : onChange now old act t = t := by
  simp [onChange, h]

theorem noteLevels_of_settled (h : Settled s) : noteLevels s = s := by
  obtain ⟨hseen, -⟩ := h
  rw [noteLevels, seenNow, ← hseen, State.withSeen_seen_self]

/-- No edge detector reacts to settled inputs. -/
theorem detectCountSource_of_settled (h : Settled s) : detectCountSource s = s := by
  obtain ⟨hseen, -⟩ := id h
  have hpa : getBit (paLevel s) 1 = getBit s.seen.pa 1 := by rw [hseen]
  have hpb1 : getBit (pbLevel s) 1 = s.seen.pb1 := by rw [hseen]
  have hcmp : s.pins.cmpOut = s.seen.cmp := by rw [hseen]
  have hcnt : s.pins.cntSrc = s.seen.cnt := by rw [hseen]
  rw [detectCountSource, onChange_of_eq hcnt, detectComparator, onChange_of_eq hcmp, detectTmr1, onChange_of_eq hpb1,
    detectTmr0, onChange_of_eq hpa, detectInt, onChange_of_eq hpa, noteLevels_of_settled h]

theorem wakeOnPa_self (now : Byte) (s : State) : wakeOnPa now now s = s := by simp [wakeOnPa]

/-- The EEPROM does not react to lines it has seen. -/
theorem Eeprom.observe_seen (e : Eeprom) (d writeTime : Nat) : e.observe d writeTime e.seenSda e.seenScl = e := by
  simp [Eeprom.observe]

theorem senseEeprom_of_settled (h : Settled s) : senseEeprom s = s := by
  obtain ⟨-, hsda, hscl⟩ := h
  have hnone : s.eeprom.observe s.draws s.cfg.writeTime (sdaLine s) (sclLine s) = s.eeprom := by
    rw [← hsda, ← hscl, Eeprom.observe_seen]
  unfold senseEeprom
  split
  · dsimp only
    rw [hnone, State.withEeprom_eeprom_self, ← hsda, ← hscl, bne_self_eq_false, bne_self_eq_false, Bool.or_false,
      if_neg Bool.false_ne_true]
    rfl
  · rfl

/-- A look at settled inputs changes nothing. -/
theorem sense_of_settled (h : Settled s) : sense s = s := by
  obtain ⟨hseen, -⟩ := id h
  have hpa : s.seen.pa = paLevel s := by rw [hseen]
  rw [sense_eq_detectors, detectCountSource_of_settled h, hpa, wakeOnPa_self, senseEeprom_of_settled h]

theorem environment_of_nil (h : s.script = []) : environment s = s := by simp [environment, h]

/-- The time the EEPROM's write has left is no part of the lines. -/
theorem Settled.passEeprom (h : Settled s) : Settled (passEeprom s) := h

/-- An interval in which nothing happens is the system clock's part and the EEPROM's. -/
theorem agentInterval_of_settled (hscript : (systemCycle s).script = []) (h : Settled (systemCycle s)) :
    agentInterval s = passEeprom (systemCycle s) := by
  have hafter : sense (passEeprom (systemCycle s)) = passEeprom (systemCycle s) := sense_of_settled h.passEeprom
  rw [agentInterval, hafter, environment_of_nil (by exact hscript), hafter]

end

/-- Settles O7: in the one idle interval of a halted core only the EEPROM's write goes on. -/
theorem haltedCoreWaits : Obligations.HaltedCoreWaits := by
  intro s hmode hcycles hscript hsettled
  have hcycle : systemCycle s = s := systemCycle_of_halted hmode
  have hinterval : agentInterval s = passEeprom s := by
    rw [agentInterval_of_settled (by rwa [hcycle]) (by rwa [hcycle]), hcycle]
  have hcharged : (s.charge 1).withCycles 0 = s := by rw [State.charge_eq, State.withCycles_withCycles, ← hcycles]; rfl
  have hone : (s.charge 1).cycles = 1 := by rw [State.charge_eq, hcycles]; rfl
  rw [step, hmode]
  change Host.Outcome.next (idleStep s) = _
  rw [idleStep, runAgents, hcharged, hone, sense_of_settled hsettled, agentIntervals, agentIntervals, hinterval]
  rfl

/-! ## The other agents over a number of cycles, short of an overflow -/

section
variable {t : Timer1} {a b n : Nat}

/-- No measurement is under way and no event waits to be seen. -/
structure Timer1.Quiet (t : Timer1) : Prop where
  noPulse : t.on = true → t.mode ≠ modePulseWidth
  noEvent : (t.on && t.mode == modeEventCount && t.event) = false

/-- The counts of Timer 1 in `n` instruction cycles (R351). -/
def Timer1.countsIn (t : Timer1) (n : Nat) : Nat := if t.on = true ∧ t.mode = modeTimer then n else 0

/-- Timer 1 after `n` cycles in which it does not overflow. -/
def Timer1.advanced (t : Timer1) (n : Nat) : Timer1 := { t with counter := t.counter + BitVec.ofNat 16 (t.countsIn n) }

theorem Timer1.Quiet.advanced (h : t.Quiet) (n : Nat) : (t.advanced n).Quiet := ⟨h.noPulse, h.noEvent⟩

theorem Timer1.countsIn_add : t.countsIn (a + b) = t.countsIn a + (t.advanced a).countsIn b := by
  by_cases h : t.on = true ∧ t.mode = modeTimer
  · rw [Timer1.countsIn, if_pos h, Timer1.countsIn, if_pos h, Timer1.countsIn, if_pos (by exact h)]
  · rw [Timer1.countsIn, if_neg h, Timer1.countsIn, if_neg h, Timer1.countsIn, if_neg (by exact h)]

theorem Timer1.advanced_zero : t.advanced 0 = t := by
  rw [Timer1.advanced, Timer1.countsIn, ite_self, BitVec.add_zero]

theorem Timer1.advanced_advanced : (t.advanced a).advanced b = t.advanced (a + b) := by
  conv_rhs => rw [Timer1.advanced, Timer1.countsIn_add, BitVec.ofNat_add, ← BitVec.add_assoc]
  rfl

end

section
variable {s : State} {a b n : Nat}

/-- A cycle of a quiet Timer 1 that does not overflow. -/
theorem cycleTimer1_of_quiet (h : s.tmr1.Quiet) (hmax : s.tmr1.counter.toNat + s.tmr1.countsIn 1 ≤ 65535) :
    cycleTimer1 s = s.withTmr1 (s.tmr1.advanced 1) := by
  rw [cycleTimer1, seeEvent1_of_none h.noEvent, Timer1.advanced]
  by_cases hon : s.tmr1.on = true
  · by_cases hmode : s.tmr1.mode = modeTimer
    · have hone : s.tmr1.countsIn 1 = 1 := if_pos ⟨hon, hmode⟩
      have htick : tickTimer1 s = countTimer1 s := by simp [tickTimer1, hon, hmode]
      rw [htick, countTimer1_of_lt (by omega), hone]
      rfl
    · have hnone : s.tmr1.countsIn 1 = 0 := if_neg fun hboth => hmode hboth.2
      have htick : tickTimer1 s = s := by simp [tickTimer1, hon, hmode, h.noPulse hon]
      rw [htick, hnone, BitVec.add_zero]
      rfl
  · have hnone : s.tmr1.countsIn 1 = 0 := if_neg fun hboth => hon hboth.1
    have htick : tickTimer1 s = s := by simp [tickTimer1, hon]
    rw [htick, hnone, BitVec.add_zero]
    rfl

/-- The watchdog after `n` cycles in which its counter does not carry (R361, R362). -/
def State.watchdogAfter (s : State) (n : Nat) : Watchdog :=
  { s.wdt with count := s.wdt.count + BitVec.ofNat 8 (watchdogClocks s n) }

theorem watchdogClocks_add : watchdogClocks s (a + b) = watchdogClocks s a + watchdogClocks s b := by
  unfold watchdogClocks
  split <;> rfl

/-- The watchdog's clock in a cycle, if f_SYS/4 is its source. -/
theorem clockWdt_of_quiet (hmax : s.wdt.count.toNat + watchdogClocks s 1 ≤ 255) :
    (if s.cfg.opt.wdtClock = .systemQuarter then clockWdt s else s) = s.withWdt (s.watchdogAfter 1) := by
  by_cases hclock : s.cfg.opt.wdtEnabled = true ∧ s.cfg.opt.wdtClock = .systemQuarter
  · have hone : watchdogClocks s 1 = 1 := if_pos hclock
    have hcount : s.wdt.count + 1 ≠ 0#8 := by bv_omega
    rw [if_pos hclock.2, clockWdt_of_count_ne hclock.1 hcount, State.watchdogAfter, hone]
    rfl
  · have hnone : watchdogClocks s 1 = 0 := if_neg hclock
    have hsame : s.watchdogAfter 1 = s.wdt := by rw [State.watchdogAfter, hnone, BitVec.add_zero]
    rw [hsame, State.withWdt_wdt_self]
    split
    · rename_i hsource
      exact clockWdt_of_disabled (by simpa [hsource] using hclock)
    · rfl

/-! ## A number of cycles -/

/-- `s` with the two timers and the watchdog as given, and `n` intervals less of the EEPROM's write to go. -/
def State.withAgents (s : State) (t0 : Timer0) (t1 : Timer1) (w : Watchdog) (n : Nat) : State :=
  (((s.withTmr0 t0).withTmr1 t1).withWdt w).withEeprom { s.eeprom with busy := s.eeprom.busy - n }

theorem State.withAgents_withAgents (s : State) (t0 t0' : Timer0) (t1 t1' : Timer1) (w w' : Watchdog) (a b : Nat) :
    (s.withAgents t0 t1 w a).withAgents t0' t1' w' b = s.withAgents t0' t1' w' (a + b) := by
  rw [State.withAgents, State.withAgents, State.withAgents, ← Nat.sub_sub]
  rfl

section
variable (t0 : Timer0) (t1 : Timer1) (w : Watchdog)

theorem State.withAgents_mode : (s.withAgents t0 t1 w n).mode = s.mode := rfl
theorem State.withAgents_script : (s.withAgents t0 t1 w n).script = s.script := rfl
theorem State.withAgents_cfg : (s.withAgents t0 t1 w n).cfg = s.cfg := rfl
theorem State.withAgents_draws : (s.withAgents t0 t1 w n).draws = s.draws := rfl

theorem State.withAgents_withCycles (c : Nat) : (s.withCycles c).withAgents t0 t1 w n =
    ((((s.withTmr0 t0).withTmr1 t1).withWdt w).withEeprom { s.eeprom with busy := s.eeprom.busy - n }).withCycles c := rfl

theorem State.withAgents_same : s.withAgents s.tmr0 s.tmr1 s.wdt 0 = s := rfl

end

/-- The timers, the watchdog and the EEPROM's remaining time are no part of the inputs. -/
theorem Settled.withAgents (h : Settled s) (t0 : Timer0) (t1 : Timer1) (w : Watchdog) (n : Nat) :
    Settled (s.withAgents t0 t1 w n) := h

/-- `s` after `n` instruction cycles in which nothing comes from outside and nothing overflows. -/
def State.ranFor (s : State) (n : Nat) : State :=
  s.withAgents (s.tmr0.advanced (4 * n)) (s.tmr1.advanced n) (s.watchdogAfter n) n

/-- In the next `n` cycles of a running core nothing comes from outside and nothing overflows. -/
structure State.QuietFor (s : State) (n : Nat) : Prop where
  running : s.mode = .running
  noEvents : s.script = []
  settled : Settled s
  tmr0 : s.tmr0.Quiet
  tmr1 : s.tmr1.Quiet
  tmr0Max : s.tmr0.counter.toNat + s.tmr0.countsIn (4 * n) ≤ 255
  tmr1Max : s.tmr1.counter.toNat + s.tmr1.countsIn n ≤ 65535
  wdtMax : s.wdt.count.toNat + watchdogClocks s n ≤ 255

theorem State.ranFor_zero (s : State) : s.ranFor 0 = s := by
  have hwdt : s.watchdogAfter 0 = s.wdt := by
    rw [State.watchdogAfter, show watchdogClocks s 0 = 0 from ite_self 0, BitVec.add_zero]
  rw [State.ranFor, Nat.mul_zero, Timer0.advanced_zero, Timer1.advanced_zero, hwdt, State.withAgents_same]

theorem State.ranFor_tmr0 (s : State) (n : Nat) : (s.ranFor n).tmr0 = s.tmr0.advanced (4 * n) := rfl
theorem State.ranFor_tmr1 (s : State) (n : Nat) : (s.ranFor n).tmr1 = s.tmr1.advanced n := rfl
theorem State.ranFor_wdt (s : State) (n : Nat) : (s.ranFor n).wdt = s.watchdogAfter n := rfl

/-- The watchdog's clocks depend on the configuration alone. -/
theorem watchdogClocks_of_cfg {t : State} (h : t.cfg = s.cfg) : watchdogClocks t n = watchdogClocks s n := by
  rw [watchdogClocks, h, watchdogClocks]

theorem watchdogClocks_ranFor (s : State) (a b : Nat) : watchdogClocks (s.ranFor a) b = watchdogClocks s b :=
  watchdogClocks_of_cfg (State.withAgents_cfg ..)

theorem State.watchdogAfter_ranFor (s : State) (a b : Nat) : (s.ranFor a).watchdogAfter b = s.watchdogAfter (a + b) := by
  rw [State.watchdogAfter, State.ranFor_wdt, watchdogClocks_ranFor, State.watchdogAfter, State.watchdogAfter,
    watchdogClocks_add, BitVec.ofNat_add, BitVec.add_assoc]

theorem State.ranFor_ranFor (s : State) (a b : Nat) : (s.ranFor a).ranFor b = s.ranFor (a + b) := by
  rw [State.ranFor.eq_def (s.ranFor a), State.watchdogAfter_ranFor, State.ranFor_tmr0, State.ranFor_tmr1,
    Timer0.advanced_advanced, Timer1.advanced_advanced, ← Nat.mul_add, State.ranFor, State.withAgents_withAgents,
    State.ranFor]

/-- A quiet run goes on being quiet. -/
theorem State.QuietFor.after (h : s.QuietFor (a + b)) : (s.ranFor a).QuietFor b where
  running := (State.withAgents_mode ..).trans h.running
  noEvents := (State.withAgents_script ..).trans h.noEvents
  settled := h.settled.withAgents _ _ _ _
  tmr0 := h.tmr0.advanced _
  tmr1 := h.tmr1.advanced _
  tmr0Max := by
    have hmax := h.tmr0Max
    rw [Nat.mul_add, Timer0.countsIn_add] at hmax
    have hcounter : (s.ranFor a).tmr0.counter.toNat = s.tmr0.counter.toNat + s.tmr0.countsIn (4 * a) :=
      toNat_add_ofNat (by omega)
    rwa [hcounter, State.ranFor_tmr0, Nat.add_assoc]
  tmr1Max := by
    have hmax := h.tmr1Max
    rw [Timer1.countsIn_add] at hmax
    have hcounter : (s.ranFor a).tmr1.counter.toNat = s.tmr1.counter.toNat + s.tmr1.countsIn a :=
      toNat_add_ofNat (by omega)
    rwa [hcounter, State.ranFor_tmr1, Nat.add_assoc]
  wdtMax := by
    have hmax := h.wdtMax
    rw [watchdogClocks_add] at hmax
    have hcount : (s.ranFor a).wdt.count.toNat = s.wdt.count.toNat + watchdogClocks s a := toNat_add_ofNat (by omega)
    rwa [hcount, watchdogClocks_ranFor, Nat.add_assoc]

theorem iterate_four {α : Type} (f : α → α) (x : α) : f^[4] x = f (f (f (f x))) := rfl

/-- R342, R351, R362: the system clock's part of one quiet cycle. -/
theorem State.QuietFor.systemCycle (h : s.QuietFor 1) : systemCycle s =
    ((s.withTmr0 (s.tmr0.advanced 4)).withTmr1 (s.tmr1.advanced 1)).withWdt (s.watchdogAfter 1) := by
  have hfour : systemClock (systemClock (systemClock (systemClock s))) = s.withTmr0 (s.tmr0.advanced 4) :=
    calc systemClock (systemClock (systemClock (systemClock s))) = systemClock^[4] s := (iterate_four systemClock s).symm
      _ = (s.withTmr0 (s.tmr0.advanced 4)).withOscDivider (s.oscDivider + 0#2) := systemClock_iterate h.tmr0 h.tmr0Max
      _ = s.withTmr0 (s.tmr0.advanced 4) := by rw [BitVec.add_zero]; rfl
  have htimer1 : cycleTimer1 (s.withTmr0 (s.tmr0.advanced 4))
      = (s.withTmr0 (s.tmr0.advanced 4)).withTmr1 (s.tmr1.advanced 1) :=
    cycleTimer1_of_quiet (s := s.withTmr0 _) h.tmr1 h.tmr1Max
  rw [Machine.systemCycle, h.running]
  dsimp only
  rw [hfour, htimer1]
  exact clockWdt_of_quiet (s := (s.withTmr0 _).withTmr1 _) h.wdtMax

theorem State.QuietFor.agentInterval (h : s.QuietFor 1) : agentInterval s = s.ranFor 1 := by
  rw [agentInterval_of_settled, h.systemCycle]
  · rfl
  · rw [h.systemCycle]; exact h.noEvents
  · rw [h.systemCycle]; exact h.settled

theorem State.QuietFor.agentIntervals (h : s.QuietFor n) : agentIntervals n s = s.ranFor n := by
  induction n generalizing s with
  | zero => exact (s.ranFor_zero).symm
  | succ n ih =>
    rw [Nat.add_comm] at h ⊢
    have hfirst : s.QuietFor 1 :=
      { h with
        tmr0Max := by have hmax := h.tmr0Max; rw [Nat.mul_add, Timer0.countsIn_add] at hmax; omega
        tmr1Max := by have hmax := h.tmr1Max; rw [Timer1.countsIn_add] at hmax; omega
        wdtMax := by have hmax := h.wdtMax; rw [watchdogClocks_add] at hmax; omega }
    rw [Nat.add_comm, Machine.agentIntervals, hfirst.agentInterval, ih h.after, State.ranFor_ranFor, Nat.add_comm]

end

theorem timer0Counts_eq (s : State) (n : Nat) : timer0Counts s n = s.tmr0.countsIn (4 * n) := rfl
theorem timer1Counts_eq (s : State) (n : Nat) : timer1Counts s n = s.tmr1.countsIn n := rfl

/-- Settles O48: the run is quiet, cycle by cycle. -/
theorem agentsRunTheCycles : Obligations.AgentsRunTheCycles := by
  intro t hmode hscript hsettled hpulse0 hpulse1 hevent0 hevent1 hmax0 hmax1 hmaxWdt
  have hclocks : watchdogClocks (t.withCycles 0) t.cycles = watchdogClocks t t.cycles := watchdogClocks_of_cfg rfl
  have hquiet : (t.withCycles 0).QuietFor t.cycles :=
    { running := hmode, noEvents := hscript, settled := hsettled
      tmr0 := ⟨hpulse0, by simp [hevent0]⟩, tmr1 := ⟨hpulse1, by simp [hevent1]⟩
      tmr0Max := hmax0, tmr1Max := hmax1, wdtMax := hclocks ▸ hmaxWdt }
  have hsense : sense (t.withCycles 0) = t.withCycles 0 := sense_of_settled hsettled
  rw [runAgents, hsense, hquiet.agentIntervals, State.ranFor, State.withAgents_draws, State.withAgents_withCycles,
    State.watchdogAfter, hclocks, Timer0.advanced, Timer1.advanced]
  rfl

end Sys2Proof.Machine
end

section
/-! SUPPORT. Wake-up of a halted core by a request and by a PA pin (60_exceptions.md R394, R395). -/

namespace Sys2Proof.Machine

/-! ## Requests -/

section
variable {s u : State} {k : IrqSource}

theorem requestInterrupt_of_clear (h : s.intc.flag k = false) :
    requestInterrupt k s = (s.withIntc (s.intc.setFlag true k)).withMode .running := by
  simp [requestInterrupt, h]

theorem requestInterrupt_of_set (h : s.intc.flag k = true) :
    requestInterrupt k s = s.withIntc (s.intc.setFlag true k) := by
  simp [requestInterrupt, h]

theorem requestInterrupt_mode_of_clear (h : s.intc.flag k = false) : (requestInterrupt k s).mode = .running := by
  rw [requestInterrupt_of_clear h]; rfl

theorem requestInterrupt_mode_of_set (h : s.intc.flag k = true) : (requestInterrupt k s).mode = s.mode := by
  rw [requestInterrupt_of_set h]; rfl

theorem requestInterrupt_pc : (requestInterrupt k s).pc = s.pc := by
  rcases requestInterrupt_cases s k with h | h <;> rw [h] <;> rfl

theorem requestInterrupt_stack : (requestInterrupt k s).stack = s.stack := by
  rcases requestInterrupt_cases s k with h | h <;> rw [h] <;> rfl

theorem fetchWord_requestInterrupt : fetchWord (requestInterrupt k s) = pmRead s s.pc := by
  rcases requestInterrupt_cases s k with h | h <;> rw [h] <;> rfl

theorem afterFetch_requestInterrupt :
    afterFetch (requestInterrupt k s) = (requestInterrupt k s).withPc (s.pc + 1#11) := by
  rw [afterFetch, requestInterrupt_pc]

theorem finishInstruction_of_no_clash (h : timerModeClash s u = false) : finishInstruction s u = .next (runAgents u) := by
  simp [finishInstruction, h]

end

/-! ## Falling edges at PA -/

section
variable {s : State} {before now : Byte}

/-- PA has a falling edge on a pin whose wake-up option is on (R395). -/
def WakingEdge (before now paWake : Byte) : Prop :=
  ∃ i, i < 8 ∧ paWake.getLsbD i = true ∧ before.getLsbD i = true ∧ now.getLsbD i = false

/-- The model's test on whole bytes, at one pin. -/
theorem getLsbD_waking {i : Nat} (hi : i < 8) (paWake : Byte) : (before &&& ~~~now &&& paWake).getLsbD i
    = (before.getLsbD i && !now.getLsbD i && paWake.getLsbD i) := by
  simp only [BitVec.getLsbD_and, BitVec.getLsbD_not, hi, decide_true, Bool.true_and]

theorem wakingEdge_iff (paWake : Byte) : WakingEdge before now paWake ↔ before &&& ~~~now &&& paWake ≠ 0#8 := by
  constructor
  · rintro ⟨i, hi, hoption, hbefore, hnow⟩ hnone
    have hbit := getLsbD_waking (before := before) (now := now) hi paWake
    rw [hnone, hoption, hbefore, hnow, BitVec.getLsbD_zero] at hbit
    exact absurd hbit (by decide)
  · intro hsome
    by_contra hnone
    refine hsome (BitVec.eq_of_getLsbD_eq fun i hi => ?_)
    rw [getLsbD_waking hi, BitVec.getLsbD_zero]
    by_contra hbit
    simp only [Bool.not_eq_false, Bool.and_eq_true, Bool.not_eq_true'] at hbit
    obtain ⟨⟨hbefore, hnow⟩, hoption⟩ := hbit
    exact hnone ⟨i, hi, hoption, hbefore, hnow⟩

theorem wakeOnPa_of_wakingEdge (h : WakingEdge before now s.cfg.opt.paWake) :
    wakeOnPa before now s = s.withMode .running :=
  if_neg ((wakingEdge_iff _).mp h)

theorem wakeOnPa_of_no_wakingEdge (h : ¬WakingEdge before now s.cfg.opt.paWake) : wakeOnPa before now s = s :=
  if_pos (not_not.mp (mt (wakingEdge_iff _).mpr h))

/-- The look at the EEPROM's lines leaves the core as it is. -/
theorem senseEeprom_mode : (senseEeprom s).mode = s.mode := by
  obtain ⟨e, d, h⟩ := senseEeprom_eq s
  rw [h]
  rfl

/-- The wake-up pins come after the detectors, so no detector hides their edge. -/
theorem sense_mode_of_wakingEdge (h : WakingEdge s.seen.pa (paLevel s) s.cfg.opt.paWake) :
    (sense s).mode = .running := by
  have hedge : WakingEdge s.seen.pa (paLevel s) (detectCountSource s).cfg.opt.paWake := by
    rwa [(detectorFrame_detectCountSource s).cfg]
  rw [sense_eq_detectors, senseEeprom_mode, wakeOnPa_of_wakingEdge hedge]
  rfl

end

/-- Settles O55: a new request and a waking edge each set the mode alone, and the next step is that of a running core. -/
theorem wakeUps : Obligations.WakeUps := by
  refine ⟨fun s k hhalted => ⟨fun hclear => ?request, fun hset => ?kept⟩,
    fun s before now => ⟨wakeOnPa_of_wakingEdge, fun hno => ?noEdge, sense_mode_of_wakingEdge⟩⟩
  case request =>
    have hmode := requestInterrupt_mode_of_clear hclear
    refine ⟨hmode, ?flag, fun j hj => ?accepted, fun hnone i u hdecode hexec hclash => ?next⟩
    case flag => rw [requestInterrupt_intc, setFlag_flag_same]
    case accepted =>
      refine ⟨enterInterrupt j (requestInterrupt k s), step_of_acceptable hmode hj, rfl, ?_⟩
      rw [enterInterrupt_stack hj, requestInterrupt_stack, requestInterrupt_pc]
    case next =>
      rw [step_of_exec _ hmode hnone (i := i) (t := u), finishInstruction_of_no_clash hclash]
      · rwa [fetchWord_requestInterrupt, requestInterrupt_cfg]
      · rwa [afterFetch_requestInterrupt]
  case kept => rw [requestInterrupt_mode_of_set hset, hhalted]
  case noEdge =>
    refine wakeOnPa_of_no_wakingEdge fun ⟨i, hi, hoption, hbefore, hnow⟩ => ?_
    rw [hno i hi hoption hbefore] at hnow
    cases hnow

end Sys2Proof.Machine
end

section
/-! SUPPORT. Reads, levels and latches of the ports (60_exceptions.md R380 to R382, R386). -/

namespace Sys2Proof.Machine

variable {s : State} {i : BitNo}

/-! ## Port A -/

theorem getBit_readPa (h : getBit (paAnalog s) i = false) :
    getBit (readPa s) i = if getBit s.ports.pac i then getBit (paLevel s) i else getBit s.ports.pa i := by
  simp only [readPa, getBit_select, h, Bool.false_eq_true, if_false]

theorem getBit_paLevel (h : getBit (paAnalog s) i = false) :
    getBit (paLevel s) i = if getBit s.ports.pac i
      then getBit s.pins.paLevel i || (getBit s.cfg.opt.paPull i && !getBit s.pins.paDriven i)
      else getBit (paOutput s) i := by
  rw [paLevel, getBit_pinLevels, h]
  cases getBit s.ports.pac i <;> simp

/-- PA0 has no analog use (R370). -/
theorem getBit_paAnalog_zero : getBit (paAnalog s) 0 = false := by
  simp +decide [paAnalog]

/-- R386: PA0 as PFD output is low while the latch bit is 0. -/
theorem getBit_paOutput_pfd (h : s.cfg.opt.pa0Pfd = true) : getBit (paOutput s) 0 = (getBit s.ports.pa 0 && s.pfd) := by
  unfold paOutput
  cases hlatch : getBit s.ports.pa 0 with
  | true => rw [h, Bool.and_self, if_pos rfl, getBit_putBit_same, Bool.true_and]
  | false => rw [Bool.and_false, if_neg Bool.false_ne_true, hlatch, Bool.false_and]

/-- Every pin but a PFD output drives its latch bit (R382). -/
theorem getBit_paOutput_latch (h : i = 0 → s.cfg.opt.pa0Pfd = false) : getBit (paOutput s) i = getBit s.ports.pa i := by
  unfold paOutput
  split
  case isFalse => rfl
  case isTrue hpfd =>
    refine getBit_putBit_of_ne _ (fun hzero => ?_) _
    rw [h hzero.symm] at hpfd
    exact Bool.false_ne_true hpfd

/-! ## Port B -/

/-- PB2 is the comparator's output only where its port function is off (R371). -/
theorem comparatorOnPin_of_port_two (h : getBit (pbOff s) 2 = false) : comparatorOnPin s = false := by
  simpa +decide [pbOff, pbAnalog, pbOscillator] using h

/-- PB6 is a clock output only where its port function is off (R381). -/
theorem clockOutLow_of_port_six (h : getBit (pbOff s) 6 = false) : clockOutLow s = false := by
  have hosc : s.cfg.opt.osc = .rcPortPin := by simpa +decide [pbOff, pbAnalog, pbOscillator] using h
  simp [clockOutLow, hosc]

theorem getBit_pbAnalogOscillator_of_port (h : getBit (pbOff s) i = false) :
    getBit (pbAnalog s ||| pbOscillator s) i = false := by
  rw [pbOff, getBit_or, Bool.or_eq_false_iff] at h
  exact h.1

theorem getBit_pbOwnLevel_of_port (h : getBit (pbOff s) i = false) :
    getBit (pbOwnLevel s) i = if getBit s.ports.pbc i
      then getBit s.pins.pbLevel i || (getBit s.cfg.opt.pbPull i && !getBit s.pins.pbDriven i)
      else getBit s.ports.pb i := by
  have hpins : getBit (pbOwnLevel s) i
      = getBit (pinLevels s.ports.pb s.ports.pbc (pbOff s) s.pins.pbLevel s.pins.pbDriven s.cfg.opt.pbPull) i := by
    by_cases hsix : i = 6
    · subst hsix
      simp only [pbOwnLevel, clockOutLow_of_port_six h, Bool.false_eq_true, if_false]
    · exact getBit_pbOwnLevel_of_ne s hsix
  rw [hpins, getBit_pinLevels, h]
  cases getBit s.ports.pbc i <;> simp

theorem not_comparatorOnPin_two (h : getBit (pbOff s) i = false) (hon : comparatorOnPin s = true) : i ≠ 2 := by
  rintro rfl
  rw [comparatorOnPin_of_port_two h] at hon
  cases hon

/-- A bit that is put on a condition leaves the others. -/
theorem getBit_ite_putBit {v : Byte} {j : BitNo} {c b : Bool} (h : c = true → i ≠ j) :
    getBit (if c = true then putBit v j b else v) i = getBit v i := by
  split
  case isTrue hc => exact getBit_putBit_of_ne _ (Ne.symm (h hc)) _
  case isFalse => rfl

/-- A port pin other than SDA has its own level. -/
theorem getBit_pbLevel_of_port (h : getBit (pbOff s) i = false) (hsda : eepromOnPortB s = false ∨ i ≠ 4) :
    getBit (pbLevel s) i = getBit (pbOwnLevel s) i := by
  have hne (hport : eepromOnPortB s = true) : i ≠ 4 := by simpa [hport] using hsda
  exact (getBit_ite_putBit hne).trans (getBit_ite_putBit (not_comparatorOnPin_two h))

/-- SDA as an input that the EEPROM does not pull low is the outside's level, high where nothing drives it (R400). -/
theorem getBit_pbLevel_sda_input (hport : eepromOnPortB s = true) (hpull : s.eeprom.pull = false)
    (hinput : getBit s.ports.pbc 4 = true) :
    getBit (pbLevel s) 4 = (getBit s.pins.pbLevel 4 || !getBit s.pins.pbDriven 4) := by
  rw [getBit_pbLevel_sda hport, sdaLine_of_portB hport, hinput, hpull]
  cases getBit s.pins.pbLevel 4 <;> cases getBit s.pins.pbDriven 4 <;> rfl

theorem getBit_pbLevel_driven_input (h : getBit (pbOff s) i = false)
    (hpull : eepromOnPortB s = false ∨ s.eeprom.pull = false ∨ i ≠ 4) (hinput : getBit s.ports.pbc i = true)
    (hdriven : getBit s.pins.pbDriven i = true) : getBit (pbLevel s) i = getBit s.pins.pbLevel i := by
  by_cases hsda : eepromOnPortB s = false ∨ i ≠ 4
  · rw [getBit_pbLevel_of_port h hsda, getBit_pbOwnLevel_of_port h, hinput, hdriven]
    simp
  · simp only [not_or, not_not, Bool.not_eq_false] at hsda
    obtain ⟨hport, rfl⟩ := hsda
    have hrelease : s.eeprom.pull = false := by simpa [hport] using hpull
    rw [getBit_pbLevel_sda_input hport hrelease hinput, hdriven]
    simp

theorem getBit_pbLevel_pulled_input (h : getBit (pbOff s) i = false)
    (hpull : eepromOnPortB s = false ∨ s.eeprom.pull = false ∨ i ≠ 4) (hinput : getBit s.ports.pbc i = true)
    (hdriven : getBit s.pins.pbDriven i = false) (hup : getBit s.cfg.opt.pbPull i = true) :
    getBit (pbLevel s) i = true := by
  by_cases hsda : eepromOnPortB s = false ∨ i ≠ 4
  · rw [getBit_pbLevel_of_port h hsda, getBit_pbOwnLevel_of_port h, hinput, hdriven, hup]
    simp
  · simp only [not_or, not_not, Bool.not_eq_false] at hsda
    obtain ⟨hport, rfl⟩ := hsda
    have hrelease : s.eeprom.pull = false := by simpa [hport] using hpull
    rw [getBit_pbLevel_sda_input hport hrelease hinput, hdriven]
    simp

/-- A read of a port pin, but for an SDA the EEPROM pulls low (R380). -/
theorem getBit_readPb (h : getBit (pbOff s) i = false)
    (hpull : eepromOnPortB s = false ∨ s.eeprom.pull = false ∨ i ≠ 4) :
    getBit (readPb s) i = if getBit s.ports.pbc i then getBit (pbLevel s) i else getBit s.ports.pb i := by
  have hne (hlow : (eepromOnPortB s && s.eeprom.pull) = true) : i ≠ 4 := by
    obtain ⟨hport, hpulled⟩ := Bool.and_eq_true_iff.mp hlow
    simpa [hport, hpulled] using hpull
  rw [readPb, getBit_select, if_neg (ne_true_of_eq_false (getBit_pbAnalogOscillator_of_port h)),
    getBit_ite_putBit (not_comparatorOnPin_two h), getBit_ite_putBit hne, getBit_select]

/-! ## PB6 as an oscillator pin -/

/-- With any oscillator option but RC with I/O the level of PB6 comes from outside alone (R381). -/
theorem getBit_pbLevel_six (h : s.cfg.opt.osc ≠ .rcPortPin) :
    getBit (pbLevel s) 6 = (getBit s.pins.pbLevel 6 && !clockOutLow s) := by
  have hoff : getBit (pbOff s) 6 = true := by simp +decide [pbOff, pbAnalog, pbOscillator, h]
  rw [getBit_pbLevel_of_ne s (by decide) (by decide), pbOwnLevel]
  cases clockOutLow s with
  | true => rw [if_pos rfl, getBit_putBit_same, Bool.not_true, Bool.and_false]
  | false =>
    rw [if_neg Bool.false_ne_true, getBit_pinLevels, hoff]
    simp

/-! ## The statements -/

/-- Settles O56: port A and port B pin by pin, and PA0 and PB6 in their second functions. -/
theorem portReads : Obligations.PortReads := by
  refine ⟨fun s i => ⟨
    fun hport => ⟨fun hout => ?paLatch, fun hin hdriven => ?paDriven, fun hin hfree hup => ?paPulled⟩,
    fun hport hpull => ⟨fun hout => ?pbLatch, fun hin hdriven => ?pbDriven, fun hin hfree hup => ?pbPulled⟩⟩,
    fun s hpfd hout => ⟨?pfdLevel, ?pfdRead⟩, fun s => ⟨fun hosc => ?clockOut, fun hosc => ?crystal, ?divider⟩⟩
  case paLatch => exact (getBit_readPa hport).trans (if_neg (ne_true_of_eq_false hout))
  case paDriven =>
    refine (getBit_readPa hport).trans ?_
    rw [getBit_paLevel hport, hin, hdriven]
    simp
  case paPulled =>
    refine (getBit_readPa hport).trans ?_
    rw [getBit_paLevel hport, hin, hfree, hup]
    simp
  case pbLatch => exact (getBit_readPb hport hpull).trans (if_neg (ne_true_of_eq_false hout))
  case pbDriven =>
    exact ((getBit_readPb hport hpull).trans (if_pos hin)).trans (getBit_pbLevel_driven_input hport hpull hin hdriven)
  case pbPulled =>
    exact ((getBit_readPb hport hpull).trans (if_pos hin)).trans (getBit_pbLevel_pulled_input hport hpull hin hfree hup)
  case pfdLevel =>
    exact (getBit_paLevel getBit_paAnalog_zero).trans
      ((if_neg (ne_true_of_eq_false hout)).trans (getBit_paOutput_pfd hpfd))
  case pfdRead =>
    exact (getBit_readPa getBit_paAnalog_zero).trans (if_neg (ne_true_of_eq_false hout))
  case clockOut =>
    refine (getBit_pbLevel_six (by rw [hosc]; decide)).trans ?_
    simp [clockOutLow, hosc]
  case crystal =>
    refine (getBit_pbLevel_six (by rw [hosc]; decide)).trans ?_
    simp [clockOutLow, hosc]
  case divider => exact (timer0Frame_systemClockTimer0 _).oscDivider

/-- Settles O57: the writes are `exec_movMA_reg`; an output's level is its latch bit. -/
theorem portWrites : Obligations.PortWrites := by
  refine ⟨fun s m => ⟨exec_movMA_reg, exec_movMA_reg⟩,
    fun s i => ⟨fun hport hpfd hout => ?pa, fun hport hsda hout => ?pb⟩⟩
  case pa =>
    rw [getBit_paLevel hport, hout, if_neg Bool.false_ne_true, getBit_paOutput_latch hpfd]
  case pb =>
    rw [getBit_pbLevel_of_port hport hsda, getBit_pbOwnLevel_of_port hport, hout, if_neg Bool.false_ne_true]

end Sys2Proof.Machine
end

section
/-! SUPPORT. The EEPROM's transfers line level by line level (60_exceptions.md R401 to R410). -/

namespace Sys2Proof.Machine

variable {d w n : Nat} {e : Eeprom} {x b q scl : Bool} {p : EepromPhase} {what : EepromByte} {bits : Byte}

/-! ## What one look does -/

/-- The EEPROM when it has seen the lines at these levels. -/
def Eeprom.sees (sda scl : Bool) (e : Eeprom) : Eeprom := { e with seenSda := sda, seenScl := scl }

/-- The EEPROM in another phase of its protocol and with another pull on SDA. -/
def Eeprom.turned (p : EepromPhase) (pull : Bool) (e : Eeprom) : Eeprom := { e with phase := p, pull := pull }

theorem Eeprom.clockRise_sees : (e.sees x scl).clockRise b = (e.clockRise b).sees x scl := by
  obtain ⟨cells, counter, phase, busy, writing, pull, seenSda, seenScl⟩ := e
  cases phase <;> rfl

theorem Eeprom.received_sees : (e.sees x scl).received what bits = (e.received what bits).sees x scl := by
  cases what with
  | device => simp only [Eeprom.received, apply_ite (Eeprom.sees x scl)]; rfl
  | address => rfl
  | data => rfl

theorem Eeprom.acknowledged_sees : (e.sees x scl).acknowledged what bits = (e.acknowledged what bits).sees x scl := by
  cases what with
  | device => simp only [Eeprom.acknowledged, apply_ite (Eeprom.sees x scl)]; rfl
  | address => rfl
  | data => rfl

theorem Eeprom.clockFall_sees : (e.sees x scl).clockFall d = (e.clockFall d).sees x scl := by
  obtain ⟨cells, counter, phase, busy, writing, pull, seenSda, seenScl⟩ := e
  cases phase with
  | standby => rfl
  | receive what n bits => simp only [Eeprom.clockFall, apply_ite (Eeprom.sees x scl), ← Eeprom.received_sees]; rfl
  | acknowledge what b => exact Eeprom.acknowledged_sees
  | send n b => simp only [Eeprom.clockFall, apply_ite (Eeprom.sees x scl)]; rfl
  | await ok => cases ok <;> rfl
  | written b n => simp only [Eeprom.clockFall, apply_ite (Eeprom.sees x scl)]; rfl

theorem Eeprom.stop_sees : (e.sees x scl).stop d w = (e.stop d w).sees x scl := by
  obtain ⟨cells, counter, phase, busy, writing, pull, seenSda, seenScl⟩ := e
  cases phase <;> rfl

/-- SDA may move while SCL is low (R401). -/
theorem Eeprom.observe_data : (e.sees x false).observe d w b false = e.sees b false := by
  cases x <;> cases b <;> rfl

theorem Eeprom.observe_rise : (e.sees b false).observe d w b true = (e.clockRise b).sees b true := by
  have hrise := congrArg (Eeprom.sees b true) (Eeprom.clockRise_sees (e := e) (x := b) (scl := false) (b := b))
  cases b <;> exact hrise

theorem Eeprom.observe_fall : (e.sees b true).observe d w b false = (e.clockFall d).sees b false := by
  have hfall := congrArg (Eeprom.sees b false) (Eeprom.clockFall_sees (e := e) (x := b) (scl := true) (d := d))
  cases b <;> exact hfall

theorem Eeprom.observe_start : (e.sees true true).observe d w false true = e.start.sees false true := rfl

theorem Eeprom.observe_stop : (e.sees false true).observe d w true true = (e.stop d w).sees true true := by
  have hstop := congrArg (Eeprom.sees true true) (Eeprom.stop_sees (e := e) (x := false) (scl := true) (d := d) (w := w))
  exact hstop

/-! ## START, STOP and one clock -/

theorem Eeprom.follow_append (l m : List (Bool × Bool)) : e.follow d w (l ++ m) = (e.follow d w l).follow d w m :=
  List.foldl_append

/-- One clock pulse with SDA at `b`. -/
def Eeprom.clocked (d : Nat) (b : Bool) (e : Eeprom) : Eeprom := (e.clockRise b).clockFall d

theorem Eeprom.follow_bitLevels : (e.sees x false).follow d w (bitLevels b) = (e.clocked d b).sees b false := by
  simp only [Eeprom.follow, bitLevels, List.foldl_cons, List.foldl_nil, Eeprom.observe_data, Eeprom.observe_rise,
    Eeprom.observe_fall, Eeprom.clocked]

theorem Eeprom.follow_startLevels :
    (e.sees true true).follow d w startLevels = (e.turned (.receive .device 0 0#8) false).sees false false := by
  simp only [Eeprom.follow, startLevels, List.foldl_cons, List.foldl_nil, Eeprom.observe_start, Eeprom.observe_fall]
  rfl

theorem Eeprom.follow_stopLevels :
    (e.sees x false).follow d w stopLevels = ((e.clockRise false).stop d w).sees true true := by
  simp only [Eeprom.follow, stopLevels, List.foldl_cons, List.foldl_nil, Eeprom.observe_data, Eeprom.observe_rise,
    Eeprom.observe_stop]

/-! ## One clock in each phase -/

/-- A received bit joins the others, the highest first (R403). -/
def shiftIn (bits : Byte) (b : Bool) : Byte := bits.extractLsb' 0 7 ++ BitVec.ofBool b

theorem Eeprom.clocked_receive (h : n < 7) : (e.turned (.receive what n bits) q).clocked d b
    = e.turned (.receive what (n + 1) (shiftIn bits b)) q := by
  have hcount : n + 1 ≠ 8 := by omega
  exact if_neg hcount

/-- The eighth bit completes the byte. -/
theorem Eeprom.clocked_receive_last :
    (e.turned (.receive what 7 bits) q).clocked d b = e.received what (shiftIn bits b) := by
  cases what <;> rfl

theorem Eeprom.clocked_acknowledge :
    (e.turned (.acknowledge what bits) q).clocked d b = e.acknowledged what bits := by
  cases what <;> rfl

/-- R401: after a sampled bit the next one is presented. -/
theorem Eeprom.clocked_send (h : n < 7) : (e.turned (.send n bits) q).clocked d b
    = e.turned (.send (n + 1) bits) (!bits.getLsbD (7 - (n + 1))) := by
  have hcount : n + 1 ≠ 8 := by omega
  exact if_neg hcount

theorem Eeprom.clocked_send_last : (e.turned (.send 7 bits) q).clocked d b
    = Eeprom.turned (.await false) false { e with counter := e.counter + 1 } := rfl

/-! ## Whole bytes -/

/-- The bits of a byte in the order in which they pass on SDA (R403, R405). -/
def wireBits (v : Byte) : List Bool :=
  [v.getLsbD 7, v.getLsbD 6, v.getLsbD 5, v.getLsbD 4, v.getLsbD 3, v.getLsbD 2, v.getLsbD 1, v.getLsbD 0]

theorem byteLevels_eq_flatMap (v : Byte) : byteLevels v = (wireBits v).flatMap bitLevels := rfl

theorem foldl_shiftIn_wireBits (v : Byte) : (wireBits v).foldl shiftIn 0#8 = v := by
  refine BitVec.eq_of_getLsbD_eq fun i hi => ?_
  simp only [wireBits, List.foldl_cons, List.foldl_nil, shiftIn, BitVec.getLsbD_append, BitVec.getLsbD_extractLsb',
    BitVec.getLsbD_ofBool]
  interval_cases i <;> simp

/-- The EEPROM after a clock pulse for each bit of the list. -/
def Eeprom.clockedBits (d : Nat) (l : List Bool) (e : Eeprom) : Eeprom := l.foldl (fun e b => e.clocked d b) e

/-- SDA is left at the list's last bit. -/
theorem Eeprom.follow_flatMap_bitLevels (l : List Bool) :
    (e.sees x false).follow d w (l.flatMap bitLevels) = (e.clockedBits d l).sees (l.getLastD x) false := by
  induction l generalizing e x with
  | nil => rfl
  | cons b l ih =>
    rw [List.flatMap_cons, Eeprom.follow_append, Eeprom.follow_bitLevels, ih, List.getLastD_cons]
    rfl

theorem Eeprom.clockedBits_receive (l : List Bool) (h : n + l.length ≤ 7) :
    (e.turned (.receive what n bits) q).clockedBits d l
      = e.turned (.receive what (n + l.length) (l.foldl shiftIn bits)) q := by
  induction l generalizing n bits with
  | nil => rfl
  | cons b l ih =>
    rw [List.length_cons] at h
    have hstep := Eeprom.clocked_receive (e := e) (what := what) (bits := bits) (q := q) (d := d) (b := b) (n := n)
      (by omega)
    calc (e.turned (.receive what n bits) q).clockedBits d (b :: l)
        = (e.turned (.receive what (n + 1) (shiftIn bits b)) q).clockedBits d l :=
          congrArg (Eeprom.clockedBits d l) hstep
      _ = _ := by rw [ih (by omega), List.length_cons, Nat.add_right_comm, Nat.add_assoc]; rfl

/-- The eight clocks of a byte deliver it. -/
theorem Eeprom.clockedBits_wireBits_receive (v : Byte) :
    (e.turned (.receive what 0 0#8) q).clockedBits d (wireBits v) = e.received what v := by
  have hseven := Eeprom.clockedBits_receive (e := e) (what := what) (bits := 0#8) (q := q) (d := d)
    ((wireBits v).take 7) (n := 0) (Nat.le_refl 7)
  calc (e.turned (.receive what 0 0#8) q).clockedBits d (wireBits v)
      = ((e.turned (.receive what 0 0#8) q).clockedBits d ((wireBits v).take 7)).clocked d (v.getLsbD 0) := rfl
    _ = e.received what (shiftIn (((wireBits v).take 7).foldl shiftIn 0#8) (v.getLsbD 0)) := by
        rw [hseven]; exact Eeprom.clocked_receive_last
    _ = e.received what v := congrArg (e.received what) (foldl_shiftIn_wireBits v)

theorem Eeprom.follow_byteLevels_receive (v : Byte) :
    ((e.turned (.receive what 0 0#8) q).sees x false).follow d w (byteLevels v)
      = (e.received what v).sees (v.getLsbD 0) false := by
  rw [byteLevels_eq_flatMap, Eeprom.follow_flatMap_bitLevels, Eeprom.clockedBits_wireBits_receive]
  rfl

/-- The ninth clock of a received byte (R404). -/
theorem Eeprom.follow_bitLevels_acknowledge :
    ((e.turned (.acknowledge what bits) q).sees x false).follow d w (bitLevels b)
      = (e.acknowledged what bits).sees b false := by
  rw [Eeprom.follow_bitLevels, Eeprom.clocked_acknowledge]

theorem Eeprom.clockedBits_send (l : List Bool) (h : n + l.length ≤ 7) :
    (e.turned (.send n bits) (!bits.getLsbD (7 - n))).clockedBits d l
      = e.turned (.send (n + l.length) bits) (!bits.getLsbD (7 - (n + l.length))) := by
  induction l generalizing n with
  | nil => rfl
  | cons b l ih =>
    rw [List.length_cons] at h
    have hstep := Eeprom.clocked_send (e := e) (bits := bits) (q := !bits.getLsbD (7 - n)) (d := d) (b := b) (n := n)
      (by omega)
    calc (e.turned (.send n bits) (!bits.getLsbD (7 - n))).clockedBits d (b :: l)
        = (e.turned (.send (n + 1) bits) (!bits.getLsbD (7 - (n + 1)))).clockedBits d l :=
          congrArg (Eeprom.clockedBits d l) hstep
      _ = _ := by rw [ih (by omega), List.length_cons, Nat.add_right_comm, Nat.add_assoc]

/-! ## Transfers -/

/-- START and the device address: acknowledged unless a write is under way (R404, R410). -/
theorem Eeprom.follow_device (v : Byte) :
    (e.sees true true).follow d w (startLevels ++ byteLevels v) = (e.received .device v).sees (v.getLsbD 0) false := by
  rw [Eeprom.follow_append, Eeprom.follow_startLevels, Eeprom.follow_byteLevels_receive]

theorem Eeprom.received_device (hbusy : e.busy = 0) (hdevice : bits.extractLsb' 1 7 = 0b1010000#7) :
    e.received .device bits = e.turned (.acknowledge .device bits) true :=
  if_pos ⟨hdevice, hbusy⟩

theorem Eeprom.received_device_busy (hbusy : e.busy ≠ 0) : e.received .device bits = e.turned .standby false :=
  if_neg fun h => hbusy h.2

/-- The cell at the address counter. -/
def Eeprom.currentByte (e : Eeprom) : Byte := Memory.read e.cells e.counter.toNat

/-- START, A1H and the acknowledge: the cell at the counter is being sent (R406). -/
theorem Eeprom.follow_readHeader (hbusy : e.busy = 0) :
    (e.sees true true).follow d w (startLevels ++ byteLevels 0xA1#8 ++ bitLevels false)
      = (e.turned (.send 0 e.currentByte) (!e.currentByte.getLsbD (7 - 0))).sees false false := by
  rw [Eeprom.follow_append, Eeprom.follow_device, Eeprom.received_device hbusy (by decide),
    Eeprom.follow_bitLevels_acknowledge]
  rfl

theorem take_flatMap_bitLevels (l : List Bool) (k : Nat) :
    (l.flatMap bitLevels).take (3 * k) = (l.take k).flatMap bitLevels := by
  induction l generalizing k with
  | nil => simp
  | cons b l ih =>
    cases k with
    | zero => rfl
    | succ k => exact congrArg (bitLevels b ++ ·) (ih k)

/-- After `k` clocks SDA shows bit 7 - k of the byte being sent, whatever the bus puts on SDA meanwhile. -/
theorem Eeprom.follow_readBits (hbusy : e.busy = 0) (v : Byte) {k : Nat} (hk : k < 8) :
    ((e.sees true true).follow d w (startLevels ++ byteLevels 0xA1#8 ++ bitLevels false
      ++ (byteLevels v).take (3 * k))).pull = !e.currentByte.getLsbD (7 - k) := by
  have hlength : ((wireBits v).take k).length = k := by
    rw [List.length_take]
    exact Nat.min_eq_left hk.le
  rw [Eeprom.follow_append, Eeprom.follow_readHeader hbusy, byteLevels_eq_flatMap, take_flatMap_bitLevels,
    Eeprom.follow_flatMap_bitLevels, Eeprom.clockedBits_send _ (by omega), hlength, Nat.zero_add]
  rfl

/-- The eighth clock moves the counter on (R406). -/
theorem Eeprom.follow_readByte (hbusy : e.busy = 0) (v : Byte) :
    ((e.sees true true).follow d w (startLevels ++ byteLevels 0xA1#8 ++ bitLevels false
      ++ byteLevels v)).counter = e.counter + 1 := by
  have hsplit (e' : Eeprom) : e'.clockedBits d (wireBits v)
      = (e'.clockedBits d ((wireBits v).take 7)).clocked d (v.getLsbD 0) := rfl
  rw [Eeprom.follow_append, Eeprom.follow_readHeader hbusy, byteLevels_eq_flatMap, Eeprom.follow_flatMap_bitLevels,
    hsplit, Eeprom.clockedBits_send ((wireBits v).take 7) (Nat.le_refl 7)]
  exact congrArg Eeprom.counter (Eeprom.clocked_send_last (d := d))

/-- START, A0H and the acknowledge: the address is to come (R409). -/
theorem Eeprom.follow_writeHeader (hbusy : e.busy = 0) :
    (e.sees true true).follow d w (startLevels ++ byteLevels 0xA0#8 ++ bitLevels false)
      = (e.turned (.receive .address 0 0#8) false).sees false false := by
  rw [Eeprom.follow_append, Eeprom.follow_device, Eeprom.received_device hbusy (by decide),
    Eeprom.follow_bitLevels_acknowledge]
  rfl

/-- An address byte and its acknowledge: the low seven bits are the counter. -/
theorem Eeprom.follow_address (a : Byte) :
    ((e.turned (.receive .address 0 0#8) q).sees x false).follow d w (byteLevels a ++ bitLevels false)
      = (Eeprom.turned (.receive .data 0 0#8) false { e with counter := a.extractLsb' 0 7 }).sees false false := by
  rw [Eeprom.follow_append, Eeprom.follow_byteLevels_receive]
  exact Eeprom.follow_bitLevels_acknowledge (e := { e with counter := a.extractLsb' 0 7 }) (q := true)

theorem Eeprom.follow_data (v : Byte) :
    ((e.turned (.receive .data 0 0#8) q).sees x false).follow d w (byteLevels v ++ bitLevels false)
      = (e.turned (.written v 0) false).sees false false := by
  rw [Eeprom.follow_append, Eeprom.follow_byteLevels_receive]
  exact Eeprom.follow_bitLevels_acknowledge (e := e) (q := true)

/-- What STOP after a single data byte leaves (R409, R410). -/
def Eeprom.storing (w : Nat) (v : Byte) (e : Eeprom) : Eeprom :=
  { e.idle with cells := Memory.write e.cells e.counter.toNat v, counter := e.counter + 1, writing := e.counter, busy := w }

theorem Eeprom.follow_stop (v : Byte) :
    ((e.turned (.written v 0) false).sees x false).follow d w stopLevels = (e.storing w v).sees true true := by
  rw [Eeprom.follow_stopLevels]
  rfl

/-- The whole transfer of R409. -/
theorem Eeprom.follow_byteWrite (hbusy : e.busy = 0) (a v : Byte) :
    (e.sees true true).follow d w (startLevels ++ byteLevels 0xA0#8 ++ bitLevels false ++ byteLevels a ++ bitLevels false
        ++ byteLevels v ++ bitLevels false ++ stopLevels)
      = (Eeprom.storing w v { e with counter := a.extractLsb' 0 7 }).sees true true := by
  calc _ = (((((e.sees true true).follow d w (startLevels ++ byteLevels 0xA0#8 ++ bitLevels false)).follow d w
          (byteLevels a ++ bitLevels false)).follow d w (byteLevels v ++ bitLevels false)).follow d w stopLevels) := by
        simp only [Eeprom.follow_append]
    _ = _ := by
        rw [Eeprom.follow_writeHeader hbusy, Eeprom.follow_address, Eeprom.follow_data, Eeprom.follow_stop]

/-- The counter counts modulo 128 from the low seven bits of the address. -/
theorem toNat_address (a : Byte) : (a.extractLsb' 0 7).toNat = a.toNat % 128 := by simp

theorem toNat_address_succ (a : Byte) : (a.extractLsb' 0 7 + 1).toNat = (a.toNat + 1) % 128 := by
  rw [BitVec.toNat_add, toNat_address]
  exact Nat.mod_add_mod _ 128 1

/-! ## The statements -/

theorem Eeprom.sees_of_seen (hsda : e.seenSda = true) (hscl : e.seenScl = true) : e.sees true true = e := by
  obtain ⟨cells, counter, phase, busy, writing, pull, seenSda, seenScl⟩ := e
  cases hsda
  cases hscl
  rfl

/-- Settles O59: `follow_byteWrite`, and the rules of the sparse memory at the addressed cell. -/
theorem eepromByteWrite : Obligations.EepromByteWrite := by
  intro d w e a v _ hbusy hsda hscl hwf
  refine ⟨_, rfl, ?_⟩
  rw [← Eeprom.sees_of_seen hsda hscl, Eeprom.follow_byteWrite hbusy]
  refine ⟨?cell, fun b hb => ?others, toNat_address_succ a, rfl, rfl, rfl⟩
  case cell =>
    rw [← toNat_address]
    exact Memory.read_write_same hwf _ v
  case others =>
    rw [← toNat_address] at hb
    exact Memory.read_write_other e.cells hb v

/-- Settles O60: `follow_readBits` and `follow_readByte`; a busy device does not answer. -/
theorem eepromRead : Obligations.EepromRead := by
  intro d w e _ hsda hscl
  have hself := Eeprom.sees_of_seen hsda hscl
  refine ⟨fun hbusy => ⟨?acknowledge, fun k hk => ?bit, ?counter⟩, fun hbusy b => ?busy⟩
  case acknowledge =>
    have hdevice := Eeprom.follow_device (e := e) (d := d) (w := w) 0xA1#8
    rw [hself, Eeprom.received_device hbusy (by decide)] at hdevice
    rw [hdevice]
    rfl
  case bit =>
    have hbits := Eeprom.follow_readBits (d := d) (w := w) hbusy e.currentByte hk
    rwa [hself] at hbits
  case counter =>
    have hbyte := Eeprom.follow_readByte (d := d) (w := w) hbusy e.currentByte
    rwa [hself] at hbyte
  case busy =>
    have hdevice := Eeprom.follow_device (e := e) (d := d) (w := w) b
    rw [hself, Eeprom.received_device_busy hbusy] at hdevice
    rw [hdevice]
    exact ⟨rfl, rfl, rfl⟩

end Sys2Proof.Machine
end
